-- ==== Sys2Proof/Word.lean ====
section
/-! DEFINITION. The few word types of the VJ-2416: what its ports and its ring carry as bits. Lengths, positions
and counts are numbers (`Int`, `Nat`), as the manual treats them. -/

namespace Sys2Proof

/-- One 16-bit word of a client port frame or of a ring frame (R164, R184). -/
abbrev Word := BitVec 16

/-- A kind code, a tag or another half word (R181). -/
abbrev Byte := BitVec 8

/-- A screen index 0 … 23. -/
abbrev ScreenId := Fin 24

/-- A client port 0 … 3. -/
abbrev PortId := Fin 4

/-- A set of screens, screen k in bit k (R174). -/
abbrev ScreenSet := BitVec 24

/-- A set of attention kinds, the kind of code c in bit c (R188). -/
abbrev KindSet := BitVec 17

end Sys2Proof
end

