-- ==== Sys2Proof/Syntax.lean ====
section
/-! DEFINITION. The commands of the VJ-2416: one constructor per row of spec/opcode_table.json. -/

namespace Sys2Proof

/-- How a frame is broken (R164, R165): PnSEL released in mid-frame, with the bits of a word left incomplete, or a
check word completed that the running check does not equal. -/
inductive FrameBreak where
  /-- PnSEL is released after `bits` further bits, the first received standing in bit 15 of `partialWord`. -/
  | released (bits : Fin 16) (partialWord : Word)
  /-- The word completed on PnDI in state CHECK. -/
  | checkWord (word : Word)
  deriving DecidableEq, Repr

/-- The commands. A request carries the port it comes from, its tag and its payload words as received; the events of
the pins carry what the pins show. -/
inductive Instr where
  /-- RESETN is asserted (R180). -/
  | resetAssert
  /-- RESETN is released; `straps` are the levels of PnRS1 and PnRS0 of ports 0 … 3 (R9, R175). -/
  | resetRelease (straps0 straps1 straps2 straps3 : BitVec 2)
  /-- The levels of ENCA and ENCB are now these (R4). -/
  | encoderEdge (enca encb : Bool)
  /-- The 500 µs drive cycle (R3). -/
  | driveCycle
  /-- The end of a frame is received on RINGI, with these words (R73, R184). -/
  | ringFrameReturn (words : List Word)
  /-- The turnaround timer runs out; `received` are the words of a frame that has begun to return (R73). -/
  | turnaroundExpiry (received : List Word)
  /-- The 100 ms dose tick (R137). -/
  | doseTick
  /-- A rising edge on SEAM (R104). -/
  | seamPulse
  /-- The frame in progress on a port is broken (R164). -/
  | frameBroken (port : PortId) (how : FrameBreak)
  /-- A good frame whose kind is no kind code (R168). -/
  | kindRefused (port : PortId) (kind tag : Byte) (payload : List Word)
  /-- A good FETCH frame (R167). -/
  | fetch (port : PortId) (tag : Byte) (payload : List Word)
  | linePut (port : PortId) (tag : Byte) (payload : List Word)
  | screenPut (port : PortId) (tag : Byte) (payload : List Word)
  | screenTune (port : PortId) (tag : Byte) (payload : List Word)
  | screenGet (port : PortId) (tag : Byte) (payload : List Word)
  | stretchSet (port : PortId) (tag : Byte) (payload : List Word)
  | groupAlign (port : PortId) (tag : Byte) (payload : List Word)
  | engage (port : PortId) (tag : Byte) (payload : List Word)
  | lift (port : PortId) (tag : Byte) (payload : List Word)
  | faultTake (port : PortId) (tag : Byte) (payload : List Word)
  | screenClear (port : PortId) (tag : Byte) (payload : List Word)
  | runBegin (port : PortId) (tag : Byte) (payload : List Word)
  | runDrain (port : PortId) (tag : Byte) (payload : List Word)
  | runAbort (port : PortId) (tag : Byte) (payload : List Word)
  | segmentGet (port : PortId) (tag : Byte) (payload : List Word)
  | webWhere (port : PortId) (tag : Byte) (payload : List Word)
  | regReport (port : PortId) (tag : Byte) (payload : List Word)
  | zonePut (port : PortId) (tag : Byte) (payload : List Word)
  | zoneSample (port : PortId) (tag : Byte) (payload : List Word)
  | curePut (port : PortId) (tag : Byte) (payload : List Word)
  | zoneContents (port : PortId) (tag : Byte) (payload : List Word)
  | reportTake (port : PortId) (tag : Byte) (payload : List Word)
  | rollGet (port : PortId) (tag : Byte) (payload : List Word)
  | statusGet (port : PortId) (tag : Byte) (payload : List Word)
  | attnEnable (port : PortId) (tag : Byte) (payload : List Word)
  | attnTake (port : PortId) (tag : Byte) (payload : List Word)
  /-- PnSEL is asserted (R164). -/
  | selectAsserted (port : PortId)
  /-- A 16-bit word is completed on PnDI (R164). -/
  | wordCompleted (port : PortId) (word : Word)
  /-- PnSEL is released, after `bits` bits of a word left incomplete (R164). -/
  | selectReleased (port : PortId) (bits : Fin 16) (partialWord : Word)
  deriving DecidableEq, Repr

end Sys2Proof
end

