-- ==== Sys2Proof/Decode.lean ====
section
/-! DEFINITION. Decoding by the opcode table. No row of spec/opcode_table.json gives bits: the part takes commands at its
pins and no instruction words, so no word spells a command. (What a request frame's words say is decoded in
Machine/Operands.lean and Machine/Ports.lean.) -/

namespace Sys2Proof

/-- The command that a word spells by the table's bits: none, since no row gives bits (assumption log 27). -/
def decodeTableWord (_nbits _w : Nat) : Option Instr := none

end Sys2Proof
end

