-- ==== Sys2Proof/Config.lean ====
section
/-! DEFINITION. What the manual leaves open: the free values. They have no body, so nothing can be proved of one. -/

namespace Sys2Proof.Config

/-- A value word the manual does not state (assumption log 9): the n-th one handed out since the machine was made. -/
opaque freeWord : Nat → Word

end Sys2Proof.Config
end

