-- ==== Sys2Proof/Machine/State.lean ====
section
/-! DEFINITION. Everything the manual gives the VJ-2416 to hold, as plain data, and its value right after reset. Lengths,
positions, trims and coordinates are `Int` in LU; counts, seqs, ids, ages, temperatures and doses are `Nat`. -/

namespace Sys2Proof.Machine

/-- Why the machine could stop with a fault. NO command of this part does: every event of the manual has its effect in
every state, so this closed inductive has no constructor. -/
inductive Fault where
  deriving DecidableEq, Repr

/-- Why a command could be refused. -/
inductive Refusal where
  /-- A row of the opcode table without a meaning. Raised by `exec` alone; no arm raises it now. Safe. -/
  | notModelled (mnemonic : String)
  deriving DecidableEq, Repr

/-! ### Position Counter (spec/01) -/

/-- R8. -/
inductive Motion where
  | still | moving
  deriving DecidableEq, Repr

/-- The Position Counter's state (table at the head of "The Position Counter"), and the levels of ENCA and ENCB that
the last edge left (R4). -/
structure Position where
  encA : Bool
  encB : Bool
  raw : BitVec 32
  taken : BitVec 32
  lostEdge : Bool
  p : Int
  still : Nat
  motion : Motion
  deriving DecidableEq, Repr

/-- The six line settings (R10 to R12). -/
structure LineSettings where
  lScr : Int
  dSeam : Int
  xInsp : Int
  inspectionRequired : Bool
  tolerance : Int
  holdOnFault : Bool
  deriving DecidableEq, Repr

/-! ### One screen: its record, channel, engagement and ring record (spec/02 to spec/05) -/

/-- Kind of a screen (R15). -/
inductive ScreenKind where
  | anchor | relative
  deriving DecidableEq, Repr

/-- The tuning part of a screen record (R28). -/
structure Tuning where
  lead : Int
  slew : Int
  gain : Int
  deadband : Int
  stepLimit : Int
  deriving DecidableEq, Repr

/-- The channel of a screen (table at the head of spec/03, R32). -/
structure Channel where
  r : Int
  lcur : Int
  gear : Int
  n : Int
  target : Int
  applied : Int
  setpoint : Int
  lastCorrected : Nat
  deriving DecidableEq, Repr

/-- R52. -/
inductive EngState where
  | absent | parked | armed | lowering | printing | ending | faulted
  deriving DecidableEq, Repr

/-- R66. -/
inductive FaultCause where
  | drive | noReply | dropped | ring | late
  deriving DecidableEq, Repr

/-- The engagement record of a screen (table at the head of spec/04). -/
structure Engagement where
  state : EngState
  cause : Option FaultCause
  startSeq : Nat
  stopSeq : Nat
  window : Bool
  deriving DecidableEq, Repr

/-- The state a drive reports (table in "Ring Controller state"). -/
inductive DriveState where
  | raised | travel | lowered | fault
  deriving DecidableEq, Repr

/-- A valid reply of a drive. -/
structure DriveReply where
  state : DriveState
  phase : Word
  deriving DecidableEq, Repr

/-- Everything held for one screen index. `ext` is the one extension value (R16): UNIFIED for an anchor, FOLLOW for a
relative. `aligned` is the index's aligned flag (R20). -/
structure Screen where
  present : Bool
  kind : ScreenKind
  dist : Int
  limit : Int
  ext : Bool
  tuning : Tuning
  aligned : Bool
  chan : Channel
  eng : Engagement
  miss : Nat
  last : Option DriveReply
  deriving DecidableEq, Repr

/-- The three values the Phase Generator shares among its channels. -/
structure PhaseShared where
  stretch : Int
  lFab : Int
  highWater : Int
  deriving DecidableEq, Repr

/-! ### Ring Controller (spec/05) -/

/-- R77. -/
inductive RingState where
  | down | up | lost
  deriving DecidableEq, Repr

/-- An entry of the fault list (R80). -/
structure FaultEntry where
  screen : ScreenId
  cause : FaultCause
  seq : Nat
  p : Int
  repeats : Nat
  deriving DecidableEq, Repr

/-- The Ring Controller's state per ring. `sent` is the frame last sent on RINGO (R72, R184). -/
structure Ring where
  state : RingState
  frameCount : Byte
  inFlight : Option Byte
  timer : Bool
  faults : List FaultEntry
  hold : Bool
  sent : List Word
  deriving DecidableEq, Repr

/-! ### Web Map (spec/06) -/

/-- R88. -/
inductive LineState where
  | setup | run | drain
  deriving DecidableEq, Repr

/-- An entry of a segment's register list (R94, R115). -/
structure RegEntry where
  screen : ScreenId
  error : Int
  outOfTol : Bool
  deriving DecidableEq, Repr

/-- A segment record (table of R94). -/
structure Segment where
  seq : Nat
  roll : Nat
  start : Int
  length : Int
  stretch : Int
  expected : ScreenSet
  printed : ScreenSet
  regs : List RegEntry
  camera : Bool
  dose : Nat
  peak : Nat
  seam : Bool
  cureUnknown : Bool
  deriving DecidableEq, Repr

/-- The nine grades (R152), in the order of their codes (R183). -/
inductive Grade where
  | pass | lost | seam | incomplete | overcure | undercure | cureUnknown | misregister | uninspected
  deriving DecidableEq, Repr

/-- One count per grade (R153). -/
structure Tally where
  pass : Nat
  lost : Nat
  seam : Nat
  incomplete : Nat
  overcure : Nat
  undercure : Nat
  cureUnknown : Nat
  misregister : Nat
  uninspected : Nat
  deriving DecidableEq, Repr

/-- A roll record (R102). A seam coordinate of none is the opening roll's; a seq of none stands before its first. -/
structure Roll where
  id : Nat
  seamAt : Option Int
  firstSeq : Option Nat
  lastSeq : Option Nat
  left : Nat
  tally : Tally
  totalLength : Nat
  deriving DecidableEq, Repr

/-- The Web Map's state (table at the head of spec/06). -/
structure WebMap where
  lineState : LineState
  queue : List Segment
  nextSeq : Nat
  exhausted : Bool
  rolls : List Roll
  nextRollId : Nat
  lastSeam : Option Int
  deriving DecidableEq, Repr

/-! ### Cure Monitor (spec/08) -/

/-- R132. -/
inductive Freshness where
  | fresh | stale | dead
  deriving DecidableEq, Repr

/-- A configured zone: its end B_z, its weight and its last sample. -/
structure Zone where
  zEnd : Int
  weight : Nat
  temp : Nat
  age : Nat
  freshness : Freshness
  deriving DecidableEq, Repr

/-- The zone table (R129). With no zone configured `b0` is not read (assumption log 22). -/
structure ZoneTable where
  b0 : Int
  zones : List Zone
  deriving DecidableEq, Repr

/-- The cure profile (R135). -/
structure CureProfile where
  tBase : Nat
  tScorch : Nat
  doseMin : Nat
  doseMax : Nat
  deriving DecidableEq, Repr

/-! ### Exit Grader (spec/09) -/

/-- R149. -/
inductive WayOut where
  | exit | evicted | aborted
  deriving DecidableEq, Repr

/-- R158. -/
inductive CloseReason where
  | nextRoll | drain | abort
  deriving DecidableEq, Repr

/-- A segment report (R154). The fault set holds the fault of grade code c in bit c − 1 (R174). -/
structure SegmentReport where
  seq : Nat
  roll : Nat
  wayOut : WayOut
  grade : Grade
  faults : BitVec 8
  start : Int
  length : Int
  dose : Nat
  peak : Nat
  expected : ScreenSet
  printed : ScreenSet
  outOfTol : ScreenSet
  largestError : Nat
  deriving DecidableEq, Repr

/-- A roll report (R158). -/
structure RollReport where
  id : Nat
  reason : CloseReason
  seamAt : Option Int
  firstSeq : Option Nat
  lastSeq : Option Nat
  segments : Nat
  tally : Tally
  totalLength : Nat
  deriving DecidableEq, Repr

/-- What waits in the exit report queue (R155). -/
inductive Report where
  | segment (r : SegmentReport)
  | roll (r : RollReport)
  deriving DecidableEq, Repr

/-! ### Client ports and attention (spec/10, spec/11) -/

/-- The acting roles (R175, R176). -/
inductive Role where
  | line | oven | inspect | observe
  deriving DecidableEq, Repr

/-- The receive states (R164). -/
inductive RxState where
  | idle | header | count | payload | check | done | discard
  deriving DecidableEq, Repr

/-- The status codes (R178). -/
inductive Status where
  | ok | none | frame | kind | role | range | state | gone | early | unprinted | reference | grouped | empty
  deriving DecidableEq, Repr

/-- A reply frame less its check word (R166, R181): the header echo, the status word and the payload. -/
structure Reply where
  kind : Byte
  tag : Byte
  status : Status
  index : Nat
  words : List Word
  deriving DecidableEq, Repr

/-- One client port. `kind` and `tag` are none while not received whole. `sel` is the level of PnSEL (asserted = true),
`dataOut` the word PnDO carried during the last word clocked, `line` whether PnATN is asserted (R190). -/
structure Port where
  role : Role
  rx : RxState
  kind : Option Byte
  tag : Option Byte
  count : Word
  payload : List Word
  check : Word
  held : Reply
  fetch : Option Nat
  sel : Bool
  dataOut : Word
  latched : KindSet
  enabled : KindSet
  line : Bool
  deriving DecidableEq, Repr

/-! ### The machine -/

/-- The whole part, and the queue of commands that wait. `freeIndex` is the MODEL's own (assumption log 9): how many
free values have been handed out. -/
structure State where
  inReset : Bool
  pos : Position
  line : LineSettings
  screens : Vector Screen 24
  phase : PhaseShared
  planned : ScreenSet
  ring : Ring
  web : WebMap
  oven : ZoneTable
  cure : CureProfile
  reports : List Report
  ports : Vector Port 4
  freeIndex : Nat
  pending : List Instr
  deriving DecidableEq, Repr

/-! ### Named updates (their lemmas are in Laws/State.lean) -/

namespace State

def withInReset (s : State) (v : Bool) : State := { s with inReset := v }
def withPos (s : State) (v : Position) : State := { s with pos := v }
def withLine (s : State) (v : LineSettings) : State := { s with line := v }
def withScreens (s : State) (v : Vector Screen 24) : State := { s with screens := v }
def withPhase (s : State) (v : PhaseShared) : State := { s with phase := v }
def withPlanned (s : State) (v : ScreenSet) : State := { s with planned := v }
def withRing (s : State) (v : Ring) : State := { s with ring := v }
def withWeb (s : State) (v : WebMap) : State := { s with web := v }
def withOven (s : State) (v : ZoneTable) : State := { s with oven := v }
def withCure (s : State) (v : CureProfile) : State := { s with cure := v }
def withReports (s : State) (v : List Report) : State := { s with reports := v }
def withPorts (s : State) (v : Vector Port 4) : State := { s with ports := v }
def withFreeIndex (s : State) (v : Nat) : State := { s with freeIndex := v }
def withPending (s : State) (v : List Instr) : State := { s with pending := v }

end State

/-! ### Reset -/

/-- R9; the input levels at reset are the model's (assumption log 7). -/
def Position.reset : Position :=
  { encA := false, encB := false, raw := 0, taken := 0, lostEdge := false, p := 0, still := 200, motion := .still }

/-- R12. -/
def LineSettings.reset : LineSettings :=
  { lScr := 64000, dSeam := 0, xInsp := 0, inspectionRequired := false, tolerance := 250, holdOnFault := true }

/-- R31. -/
def Tuning.reset : Tuning := { lead := 10000, slew := 8, gain := 128, deadband := 0, stepLimit := 100 }

/-- R51. -/
def Channel.reset : Channel :=
  { r := 0, lcur := 64000, gear := 67108, n := 0, target := 0, applied := 0, setpoint := 0, lastCorrected := 0 }

/-- R71. -/
def Engagement.reset : Engagement := { state := .absent, cause := none, startSeq := 0, stopSeq := 0, window := false }

/-- R31, R51, R71, R87. -/
def Screen.reset : Screen :=
  { present := false, kind := .anchor, dist := 0, limit := 0, ext := false, tuning := .reset, aligned := false,
    chan := .reset, eng := .reset, miss := 0, last := none }

/-- R51. -/
def PhaseShared.reset : PhaseShared := { stretch := 0, lFab := 64000, highWater := 0 }

/-- R87; no frame has been sent (assumption log 12). -/
def Ring.reset : Ring :=
  { state := .down, frameCount := 0, inFlight := none, timer := false, faults := [], hold := false, sent := [] }

/-- R111. -/
def WebMap.reset : WebMap :=
  { lineState := .setup, queue := [], nextSeq := 1, exhausted := false, rolls := [], nextRollId := 1, lastSeam := none }

/-- R148. -/
def ZoneTable.reset : ZoneTable := { b0 := 0, zones := [] }

/-- R148. -/
def CureProfile.reset : CureProfile := { tBase := 1200, tScorch := 4000, doseMin := 0, doseMax := 4294967295 }

/-- The reply held after reset and before the first request (R166). -/
def Reply.none : Reply := { kind := 0, tag := 0, status := .none, index := 0, words := [] }

/-- A port right after reset, acting in the role its straps gave it (R180, R195). -/
def Port.reset (role : Role) : Port :=
  { role := role, rx := .idle, kind := Option.none, tag := Option.none, count := 0, payload := [], check := 0xFFFF,
    held := .none, fetch := Option.none, sel := false, dataOut := 0, latched := 0, enabled := 0, line := false }

/-- The roles of the model's reset: port 0 LINE, port 1 OVEN, port 2 INSPECT, port 3 OBSERVE (assumption log 8). -/
def Role.atReset (p : PortId) : Role :=
  match p with
  | 0 => .line
  | 1 => .oven
  | 2 => .inspect
  | 3 => .observe

/-- The machine right after reset, nothing commanded yet. -/
def State.reset : State :=
  { inReset := false, pos := .reset, line := .reset, screens := Vector.ofFn fun _ => .reset, phase := .reset,
    planned := 0, ring := .reset, web := .reset, oven := .reset, cure := .reset, reports := [],
    ports := Vector.ofFn fun p => .reset (Role.atReset p), freeIndex := 0, pending := [] }

end Sys2Proof.Machine
end

