-- ==== Sys2Proof/Machine/Operands.lean ====
section
/-! DEFINITION. What crosses a port or the ring as bits: kind codes and roles, the fields of a request payload with
their widen words, the words of a reply, the checks of both frame kinds, and the code of every named value. -/

namespace Sys2Proof.Machine

/-! ### Kinds and roles -/

/-- The request kinds (R182, R177). FETCH is no request. -/
inductive Kind where
  | linePut | screenPut | screenTune | screenGet | stretchSet | groupAlign | engage | lift | faultTake | screenClear
  | runBegin | runDrain | runAbort | segmentGet | webWhere | regReport | zonePut | curePut | zoneSample | zoneContents
  | reportTake | rollGet | statusGet | attnEnable | attnTake
  deriving DecidableEq, Repr

/-- The kind code of FETCH (R182). -/
def fetchCode : Byte := 0x01

/-- The kind codes (R182). -/
def Kind.code : Kind → Byte
  | .linePut => 0x10
  | .screenPut => 0x20
  | .screenTune => 0x21
  | .screenGet => 0x22
  | .stretchSet => 0x28
  | .groupAlign => 0x29
  | .engage => 0x30
  | .lift => 0x31
  | .faultTake => 0x38
  | .screenClear => 0x39
  | .runBegin => 0x40
  | .runDrain => 0x41
  | .runAbort => 0x42
  | .segmentGet => 0x43
  | .webWhere => 0x44
  | .regReport => 0x50
  | .zonePut => 0x60
  | .curePut => 0x61
  | .zoneSample => 0x62
  | .zoneContents => 0x63
  | .reportTake => 0x70
  | .rollGet => 0x71
  | .statusGet => 0x78
  | .attnEnable => 0x7C
  | .attnTake => 0x7D

/-- Every request kind. -/
def Kind.all : List Kind :=
  [.linePut, .screenPut, .screenTune, .screenGet, .stretchSet, .groupAlign, .engage, .lift, .faultTake, .screenClear,
   .runBegin, .runDrain, .runAbort, .segmentGet, .webWhere, .regReport, .zonePut, .curePut, .zoneSample,
   .zoneContents, .reportTake, .rollGet, .statusGet, .attnEnable, .attnTake]

/-- The request kind a code names; none is answered KIND (R168, R182). -/
def Kind.ofCode (c : Byte) : Option Kind := Kind.all.find? fun k => k.code == c

/-- The role two strap pins give (R175). -/
def strapRole (straps : BitVec 2) : Role :=
  if straps = 0#2 then .line else if straps = 1#2 then .oven else if straps = 2#2 then .inspect else .observe

/-- The acting role of port p among the strapped roles: of the ports strapped LINE, and of those strapped OVEN, the
lowest-numbered keeps the role and the others act as OBSERVE (R176). -/
def actingRole (strapped : PortId → Role) (p : PortId) : Role :=
  match strapped p with
  | .line => if (List.finRange 4).any fun q => q < p && strapped q == .line then .observe else .line
  | .oven => if (List.finRange 4).any fun q => q < p && strapped q == .oven then .observe else .oven
  | .inspect => .inspect
  | .observe => .observe

/-- The permission table (R177). -/
def permits : Kind → Role → Bool
  | .screenGet, _ | .segmentGet, _ | .webWhere, _ | .rollGet, _ | .statusGet, _ | .attnEnable, _ | .attnTake, _ => true
  | .regReport, r => r == .inspect
  | .curePut, r => r == .line || r == .oven
  | .zoneSample, r => r == .oven
  | .zoneContents, r => r == .line || r == .oven || r == .observe
  | .linePut, r | .screenPut, r | .screenTune, r | .stretchSet, r | .groupAlign, r | .engage, r | .lift, r
  | .faultTake, r | .screenClear, r | .runBegin, r | .runDrain, r | .runAbort, r | .zonePut, r | .reportTake, r =>
    r == .line

/-! ### Request payloads: fields and widen words (R170 to R173) -/

/-- One decoded field. `index` is the word index that names it: its first counted widen word, or its field word.
`parts` are its 15-bit parts, the most significant first; `own` is the field word's part alone, at `ownIndex`. -/
structure Field where
  index : Nat
  parts : List Nat
  own : Nat
  ownIndex : Nat
  deriving DecidableEq, Repr

/-- The 15 bits a payload word carries (R181). -/
def lowBits (w : Word) : Nat := w.toNat % 32768

/-- The counted widen words of a run: all of up to two, else the first and the last (R170, R171). -/
def countedWidens (run : List (Nat × Nat)) : List (Nat × Nat) :=
  match run with
  | [] => []
  | [a] => [a]
  | a :: b :: rest => [a, (b :: rest).getLast (by simp)]

/-- The field that a field word at index i closes after a run of widen words. -/
def closeField (run : List (Nat × Nat)) (i : Nat) (w : Word) : Field :=
  let counted := countedWidens run
  { index := (counted.map Prod.fst).headD i
    parts := counted.map Prod.snd ++ [lowBits w]
    own := lowBits w
    ownIndex := i }

/-- The fields of a payload from word index i on, `run` being the widen words that stand just before it (R170). A run
after the last field word belongs to no field (R171). -/
def decodeFrom (i : Nat) (run : List (Nat × Nat)) : List Word → List Field
  | [] => []
  | w :: ws =>
    if w.msb then decodeFrom (i + 1) (run ++ [(i, lowBits w)]) ws
    else closeField run i w :: decodeFrom (i + 1) [] ws

/-- The fields of a request payload. -/
def fields (payload : List Word) : List Field := decodeFrom 0 [] payload

/-- An unsigned field's value (R170, R172). -/
def Field.value (f : Field) : Nat := f.parts.foldl (fun v b => v * 32768 + b) 0

/-- A signed field's value: the sign is bit 14 of the most significant counted part (R172). -/
def Field.signed (f : Field) : Int :=
  if f.parts.headD 0 < 16384 then f.value else (f.value : Int) - 32768 ^ f.parts.length

/-! ### Answers -/

/-- What a block answers to a request: the status code, the word index and the payload words. -/
structure Answer where
  code : Status
  index : Nat
  words : List Word
  deriving DecidableEq, Repr

/-- A refusal carries no payload unless a rule gives one (R178). -/
def refuse (code : Status) (index : Nat) : Answer := { code := code, index := index, words := [] }

/-- An accepted request. -/
def accept (words : List Word) : Answer := { code := .ok, index := 0, words := words }

/-- Too few fields: RANGE at the payload count (R173). -/
def tooFew (payload : List Word) : Answer := refuse .range payload.length

/-- RANGE naming a field (R173). -/
def naming (f : Field) : Answer := refuse .range f.index

/-- What a request whose payload must be empty is refused with, if anything. -/
def noFields (payload : List Word) : Option Answer := (fields payload).head?.map naming

/-- The fields of a payload that must hold exactly n (R173). -/
def exactly (n : Nat) (payload : List Word) : Except Answer (List Field) :=
  if (fields payload).length < n then .error (tooFew payload)
  else match (fields payload)[n]? with
    | some f => .error (naming f)
    | none => .ok (fields payload)

/-- The first field outside its range, in order, refused with RANGE. -/
def firstOutside (ranges : List (Nat × Nat)) (fs : List Field) : Option Answer :=
  ((fs.zip ranges).find? fun fr => fr.1.value < fr.2.1 || fr.2.2 < fr.1.value).map fun fr => naming fr.1

/-- The value of the i-th field of a list that holds it. -/
def valueAt (fs : List Field) (i : Nat) : Nat := (fs[i]?.map Field.value).getD 0

/-- The only field of a payload, within low … high; the field out of range is named before a second one (assumption
log 14). -/
def oneField (low high : Nat) (payload : List Word) : Except Answer Nat :=
  match fields payload with
  | [] => .error (tooFew payload)
  | f :: rest =>
    if f.value < low || high < f.value then .error (naming f)
    else match rest with
      | [] => .ok f.value
      | g :: _ => .error (naming g)

/-- The only field of a payload as a screen index 0 … 23 (R55, check 1). -/
def oneScreen (payload : List Word) : Except Answer ScreenId :=
  match fields payload with
  | [] => .error (tooFew payload)
  | f :: rest =>
    if h : f.value < 24 then
      match rest with
      | [] => .ok ⟨f.value, h⟩
      | g :: _ => .error (naming g)
    else .error (naming f)

/-- The only field of a payload as a signed value, any value being taken (R34, R109). -/
def oneSigned (payload : List Word) : Except Answer Int :=
  match fields payload with
  | [] => .error (tooFew payload)
  | [f] => .ok f.signed
  | _ :: g :: _ => .error (naming g)

/-! ### Reply words (R174) -/

/-- A value of one word, two's complement if signed. -/
def words1 (v : Int) : List Word := [BitVec.ofInt 16 v]

/-- A value of two words, the most significant first. -/
def words2 (v : Int) : List Word := [(BitVec.ofInt 32 v).extractLsb' 16 16, (BitVec.ofInt 32 v).extractLsb' 0 16]

/-- A value of three words, the most significant first. -/
def words3 (v : Int) : List Word :=
  [(BitVec.ofInt 48 v).extractLsb' 32 16, (BitVec.ofInt 48 v).extractLsb' 16 16, (BitVec.ofInt 48 v).extractLsb' 0 16]

/-- A flag: 0 for no, 1 for yes. -/
def flagWord (b : Bool) : List Word := if b then [1] else [0]

/-- A set of screens in two words. -/
def setWords (set : ScreenSet) : List Word := words2 set.toNat

/-- A set of attention kinds in two words (R188). -/
def kindSetWords (set : KindSet) : List Word := words2 set.toNat

/-- A seq, none being 0. -/
def seqWords (seq : Option Nat) : List Word := words2 (seq.getD 0)

/-- A roll's seam coordinate, the opening roll's being three words of 0xFFFF. -/
def seamWords (seam : Option Int) : List Word :=
  match seam with
  | none => [0xFFFF, 0xFFFF, 0xFFFF]
  | some c => words3 c

/-! ### Codes (R178, R183) -/

/-- The status codes (R178). -/
def Status.toCode : Status → Nat
  | .ok => 0
  | .none => 1
  | .frame => 2
  | .kind => 3
  | .role => 4
  | .range => 5
  | .state => 6
  | .gone => 7
  | .early => 8
  | .unprinted => 9
  | .reference => 10
  | .grouped => 11
  | .empty => 12

def LineState.toCode : LineState → Nat
  | .setup => 0
  | .run => 1
  | .drain => 2

def RingState.toCode : RingState → Nat
  | .down => 0
  | .up => 1
  | .lost => 2

def Motion.toCode : Motion → Nat
  | .still => 0
  | .moving => 1

def Role.toCode : Role → Nat
  | .line => 0
  | .oven => 1
  | .inspect => 2
  | .observe => 3

def EngState.toCode : EngState → Nat
  | .absent => 0
  | .parked => 1
  | .armed => 2
  | .lowering => 3
  | .printing => 4
  | .ending => 5
  | .faulted => 6

/-- Fault causes; none is 0 (R183). -/
def FaultCause.toCode : FaultCause → Nat
  | .drive => 1
  | .noReply => 2
  | .dropped => 3
  | .ring => 4
  | .late => 5

/-- A fault cause or none. -/
def causeCode (c : Option FaultCause) : Nat := (c.map FaultCause.toCode).getD 0

/-- A last reply state; none is 0 (R183). -/
def DriveState.toCode : DriveState → Nat
  | .raised => 1
  | .travel => 2
  | .lowered => 3
  | .fault => 4

def ScreenKind.toCode : ScreenKind → Nat
  | .anchor => 0
  | .relative => 1

def Freshness.toCode : Freshness → Nat
  | .fresh => 0
  | .stale => 1
  | .dead => 2

def Grade.toCode : Grade → Nat
  | .pass => 0
  | .lost => 1
  | .seam => 2
  | .incomplete => 3
  | .overcure => 4
  | .undercure => 5
  | .cureUnknown => 6
  | .misregister => 7
  | .uninspected => 8

def WayOut.toCode : WayOut → Nat
  | .exit => 0
  | .evicted => 1
  | .aborted => 2

def CloseReason.toCode : CloseReason → Nat
  | .nextRoll => 0
  | .drain => 1
  | .abort => 2

/-! ### Frame checks (R165, R185) -/

/-- One bit into the running check of a port frame: x^16 + x^12 + x^5 + 1 (R165). -/
def crc16Bit (reg : Word) (bit : Bool) : Word :=
  if (reg.msb ^^ bit) then (reg <<< 1) ^^^ 0x1021 else reg <<< 1

/-- The bits of a word of width w, the most significant first. -/
def bitsOf {w : Nat} (x : BitVec w) : List Bool := (List.range w).map fun i => x.getMsbD i

/-- One word into the running check. -/
def crc16Word (reg : Word) (w : Word) : Word := (bitsOf w).foldl crc16Bit reg

/-- The running check after a run of words, from 0xFFFF (R165). -/
def crc16 (ws : List Word) : Word := ws.foldl crc16Word 0xFFFF

/-- One bit into a slot check: x^8 + x^2 + x + 1 (R185). -/
def crc8Bit (reg : Byte) (bit : Bool) : Byte :=
  if (reg.msb ^^ bit) then (reg <<< 1) ^^^ 0x07 else reg <<< 1

/-- The slot check over bits 15 … 8 of word A and all of word B (R185). -/
def slotCheck (high : Byte) (b : Word) : Byte := (bitsOf high ++ bitsOf b).foldl crc8Bit 0

/-! ### Port frames (R181) -/

/-- The header word of a frame. -/
def headerWord (kind tag : Byte) : Word := kind ++ tag

/-- The words of a request frame before its check word. -/
def requestBody (kind tag : Byte) (payload : List Word) : List Word :=
  headerWord kind tag :: BitVec.ofNat 16 payload.length :: payload

/-- The words of a request frame, its check word last. -/
def requestFrameWords (kind tag : Byte) (payload : List Word) : List Word :=
  requestBody kind tag payload ++ [crc16 (requestBody kind tag payload)]

/-- The status word of a reply. -/
def Reply.statusWord (r : Reply) : Word := BitVec.ofNat 8 r.status.toCode ++ BitVec.ofNat 8 r.index

/-- The words of a reply frame before its check word. -/
def Reply.body (r : Reply) : List Word :=
  headerWord r.kind r.tag :: r.statusWord :: BitVec.ofNat 16 r.words.length :: r.words

/-- The words of a reply frame, its check word last. -/
def Reply.frame (r : Reply) : List Word := r.body ++ [crc16 r.body]

/-! ### Ring frames (R184, R185) -/

/-- The slot commands (R52, R184). -/
inductive SlotCommand where
  | idle | raise | lower
  deriving DecidableEq, Repr

def SlotCommand.toBits : SlotCommand → BitVec 2
  | .idle => 0
  | .raise => 1
  | .lower => 2

/-- The slot command of an engagement state (R52). -/
def EngState.command : EngState → SlotCommand
  | .absent => .idle
  | .parked | .armed | .faulted => .raise
  | .lowering | .printing | .ending => .lower

/-- Header word 0: 0xA5 over the frame count. -/
def ringHeader (count : Byte) : Word := (0xA5 : Byte) ++ count

/-- The two words of slot k as sent: answered mark 0, command, index, check; phase. -/
def sentSlot (k : ScreenId) (c : SlotCommand) (phase : Word) : List Word :=
  let high : Byte := 0#1 ++ c.toBits ++ BitVec.ofNat 5 k.val
  [high ++ slotCheck high phase, phase]

/-- The drive state in bits 14 … 13 of a returned slot's word A. -/
def driveStateOf (b : BitVec 2) : DriveState :=
  if b = 0#2 then .raised else if b = 1#2 then .travel else if b = 2#2 then .lowered else .fault

/-- Whether the words received so far of a returning frame pass the header check and carry this count (R73, R185). -/
def headerMatches (count : Byte) (words : List Word) : Bool :=
  match words with
  | h0 :: h1 :: _ => h0 == ringHeader count && h1 == ~~~h0
  | _ => false

/-- The valid reply in slot k of the words received, if it is one: received whole, answered, in its own place and with
a good check (R73, R185). -/
def slotReply (words : List Word) (k : ScreenId) : Option DriveReply :=
  match words[2 + 2 * k.val]?, words[3 + 2 * k.val]? with
  | some a, some b =>
    let high : Byte := a.extractLsb' 8 8
    if a.msb && a.extractLsb' 8 5 == BitVec.ofNat 5 k.val && a.extractLsb' 0 8 == slotCheck high b
    then some { state := driveStateOf (a.extractLsb' 13 2), phase := b } else none
  | _, _ => none

end Sys2Proof.Machine
end

