-- ==== Sys2Proof/Machine/Ops.lean ====
section
/-! DEFINITION. The shared operations over screens, ports, groups, design coordinates, the segment queue, the rolls and
the zones. -/

namespace Sys2Proof.Machine

/-! ### Screens and ports -/

/-- Every screen index, in index order. -/
def allScreens : List ScreenId := List.finRange 24

/-- Every port. -/
def allPorts : List PortId := List.finRange 4

/-- What is held for screen k. -/
def State.screen (s : State) (k : ScreenId) : Screen := s.screens[k]

/-- Change what is held for screen k alone. -/
def State.modScreen (k : ScreenId) (f : Screen → Screen) (s : State) : State :=
  s.withScreens (s.screens.set k (f (s.screen k)))

/-- Change what is held for every screen. -/
def State.mapScreens (f : ScreenId → Screen → Screen) (s : State) : State :=
  s.withScreens (Vector.ofFn fun k => f k (s.screen k))

/-- Port n. -/
def State.port (s : State) (n : PortId) : Port := s.ports[n]

/-- Change port n alone. -/
def State.modPort (n : PortId) (f : Port → Port) (s : State) : State :=
  s.withPorts (s.ports.set n (f (s.port n)))

/-- Change every port. -/
def State.mapPorts (f : PortId → Port → Port) (s : State) : State :=
  s.withPorts (Vector.ofFn fun n => f n (s.port n))

/-- Change the engagement record of screen k. -/
def State.modEng (k : ScreenId) (f : Engagement → Engagement) (s : State) : State :=
  s.modScreen k fun x => { x with eng := f x.eng }

/-- Change the channel of screen k. -/
def State.modChan (k : ScreenId) (f : Channel → Channel) (s : State) : State :=
  s.modScreen k fun x => { x with chan := f x.chan }

/-- The engagement state of screen k. -/
def State.engState (s : State) (k : ScreenId) : EngState := (s.screen k).eng.state

/-- A value word the manual does not state, and the state after it is handed out (assumption log 9). -/
def State.takeFree (s : State) : Word × State := (Config.freeWord s.freeIndex, s.withFreeIndex (s.freeIndex + 1))

/-! ### Sets of screens -/

/-- Whether screen k is in a set. -/
def inSet (set : ScreenSet) (k : ScreenId) : Bool := set.getLsbD k.val

/-- A set with screen k. -/
def addTo (set : ScreenSet) (k : ScreenId) : ScreenSet := set ||| BitVec.twoPow 24 k.val

/-- A set without screen k. -/
def dropFrom (set : ScreenSet) (k : ScreenId) : ScreenSet := set &&& ~~~(BitVec.twoPow 24 k.val)

/-- The set of the screens of which a test holds. -/
def screensWhere (test : ScreenId → Bool) : ScreenSet :=
  allScreens.foldl (fun set k => if test k then addTo set k else set) 0

/-! ### Groups (R17 to R20) -/

/-- The anchor that names the group of screen k: the nearest present anchor of index at most k; none for an ABSENT
screen (R17). -/
def anchorOf (t : Vector Screen 24) (k : ScreenId) : Option ScreenId :=
  if t[k].present then
    (allScreens.filter fun a => a ≤ k && t[a].present && t[a].kind == .anchor).getLast?
  else none

/-- The members of the group named by a, in index order. -/
def membersOf (t : Vector Screen 24) (a : ScreenId) : List ScreenId :=
  allScreens.filter fun k => anchorOf t k == some a

/-- The relatives of the group named by a, in index order. -/
def relativesOf (t : Vector Screen 24) (a : ScreenId) : List ScreenId := (membersOf t a).filter fun k => k != a

/-- Whether the group of screen k is UNIFIED. -/
def inUnified (t : Vector Screen 24) (k : ScreenId) : Bool :=
  match anchorOf t k with
  | some a => t[a].ext
  | none => false

/-- Whether a screen is a present anchor. -/
def isAnchor (x : Screen) : Bool := x.present && x.kind == .anchor

/-- Whether the group of screen k is aligned (R20). -/
def groupAligned (t : Vector Screen 24) (k : ScreenId) : Bool :=
  match anchorOf t k with
  | some a => t[a].aligned
  | none => false

/-- The effective applied trim E_k (R19); an ABSENT screen's is reported as 0 (R30). -/
def effTrim (t : Vector Screen 24) (k : ScreenId) : Int :=
  if k = 0 ∨ t[k].present = false then 0
  else match t[k].kind, anchorOf t k with
    | .relative, some a => if t[a].ext || t[k].ext then t[a].chan.applied + t[k].chan.applied else t[k].chan.applied
    | _, _ => t[k].chan.applied

/-- The design coordinate w_k = P − X_k − E_k (R2). -/
def State.design (s : State) (k : ScreenId) : Int := s.pos.p - (s.screen k).dist - effTrim s.screens k

/-! ### The segment queue (R40, R54, R94) -/

/-- Whether a segment holds a fabric coordinate (R1). -/
def Segment.holds (g : Segment) (c : Int) : Bool := g.start ≤ c && c < g.start + g.length

/-- The last coordinate of a segment. -/
def Segment.lastCoord (g : Segment) : Int := g.start + g.length - 1

/-- The queued segment that contains a coordinate (R40). -/
def containing (q : List Segment) (c : Int) : Option Segment := q.find? fun g => g.holds c

/-- The queued segment of a seq. -/
def segmentOf (q : List Segment) (seq : Nat) : Option Segment := q.find? fun g => g.seq == seq

/-- The arriving seq of a design coordinate: that of the first queued segment, in queue order, that starts beyond it,
else the next seq (R54). -/
def arrivingSeq (s : State) (w : Int) : Nat :=
  match s.web.queue.find? fun g => w < g.start with
  | some g => g.seq
  | none => s.web.nextSeq

/-- Change the queue alone. -/
def State.withQueue (s : State) (q : List Segment) : State := s.withWeb { s.web with queue := q }

/-- Change the roll table alone. -/
def State.withRolls (s : State) (rolls : List Roll) : State := s.withWeb { s.web with rolls := rolls }

/-- Whether a roll holds a queued segment. -/
def rollQueued (q : List Segment) (id : Nat) : Bool := q.any fun g => g.roll == id

/-- Nine grade counts of 0. -/
def Tally.zero : Tally := ⟨0, 0, 0, 0, 0, 0, 0, 0, 0⟩

/-- A roll with nothing in it yet (R90, R105). -/
def Roll.opened (id : Nat) (seamAt : Option Int) : Roll :=
  { id := id, seamAt := seamAt, firstSeq := none, lastSeq := none, left := 0, tally := .zero, totalLength := 0 }

/-- The next roll id after one is issued (R107). -/
def nextId (id : Nat) : Nat := if id = 65535 then 1 else id + 1

/-! ### The oven (R129, R140) -/

/-- The zones with their lower bounds, in zone order. -/
def zoneSpans (low : Int) : List Zone → List (Int × Zone)
  | [] => []
  | z :: zs => (low, z) :: zoneSpans z.zEnd zs

/-- The zones of the table with their lower bounds. -/
def ZoneTable.spans (t : ZoneTable) : List (Int × Zone) := zoneSpans t.b0 t.zones

/-- The oven exit X_exit = B_n; none with no zone configured. -/
def ZoneTable.exit (t : ZoneTable) : Option Int := t.zones.getLast?.map Zone.zEnd

/-- How many of a segment's path positions lie within low … high − 1, at web position p (R140). -/
def overlap (p : Int) (g : Segment) (low high : Int) : Int :=
  max 0 (min (p - g.start) high - max (p - g.start - g.length) low)

/-- The excess of a zone (R139). -/
def Zone.excess (tBase : Nat) (z : Zone) : Nat :=
  if z.freshness = .dead then 0 else (z.temp - tBase) * z.weight / 128

/-! ### Stage (R101) -/

inductive Stage where
  | screens | camera | oven
  deriving DecidableEq, Repr

def Stage.toCode : Stage → Nat
  | .screens => 0
  | .camera => 1
  | .oven => 2

/-- The stage of a queued record, from its leading edge (R101). -/
def State.stage (s : State) (g : Segment) : Stage :=
  let a := s.pos.p - g.start
  if a < s.line.xInsp then .screens else if a ≤ s.oven.b0 then .camera else .oven

/-! ### The staged fabric repeat and the gear constant -/

/-- L_fab from L_scr and S (R33). -/
def stagedRepeat (lScr stretch : Int) : Int := lScr + (lScr * stretch + 32768) / 65536

/-- The gear constant of a repeat length (R41). -/
def gearOf (lcur : Int) : Int := 4294967296 / lcur

/-- A value clamped to low … high. -/
def clamp (low high v : Int) : Int := max low (min high v)

/-- The upper bound of the web position, 2^40 − 1 (R6). -/
def topP : Int := 1099511627775

end Sys2Proof.Machine
end

