-- ==== Sys2Proof/Machine/Flags.lean ====
section
/-! DEFINITION. What the part shows on its lines: the attention kinds and the sets they are held in, the level
conditions, the attention lines, and the hold output. -/

namespace Sys2Proof.Machine

/-- The seventeen attention kinds (table of spec/11). -/
inductive EventKind where
  | reportsWaiting | faultsWaiting | webStill | ringLost | segmentAtCamera | screenFault | trimAtLimit | reportLost
  | segmentEvicted | zoneStale | zoneDead | cureFault | rollClosed | drainDone | motionClamp | seqExhausted
  | rollTableFull
  deriving DecidableEq, Repr

/-- The code of a kind, its bit in a set of kinds (R188). -/
def EventKind.toCode : EventKind → Nat
  | .reportsWaiting => 0
  | .faultsWaiting => 1
  | .webStill => 2
  | .ringLost => 3
  | .segmentAtCamera => 4
  | .screenFault => 5
  | .trimAtLimit => 6
  | .reportLost => 7
  | .segmentEvicted => 8
  | .zoneStale => 9
  | .zoneDead => 10
  | .cureFault => 11
  | .rollClosed => 12
  | .drainDone => 13
  | .motionClamp => 14
  | .seqExhausted => 15
  | .rollTableFull => 16

/-- The set that holds one kind. -/
def EventKind.bit (e : EventKind) : KindSet := BitVec.twoPow 17 e.toCode

/-- The set of some kinds. -/
def kindSet (es : List EventKind) : KindSet := es.foldl (fun set e => set ||| e.bit) 0

/-- The kinds a role may see (R188). -/
def visible : Role → KindSet
  | .line | .observe => BitVec.allOnes 17
  | .oven => kindSet [.webStill, .ringLost, .zoneStale, .zoneDead, .cureFault, .drainDone]
  | .inspect => kindSet [.webStill, .ringLost, .segmentAtCamera, .trimAtLimit]

/-- The level kinds (table of spec/11). -/
def levelKinds : KindSet := kindSet [.reportsWaiting, .faultsWaiting, .webStill, .ringLost]

/-- The level kinds whose conditions hold (R186). -/
def levels (s : State) : KindSet :=
  (if s.reports.isEmpty then 0 else EventKind.reportsWaiting.bit)
  ||| (if s.ring.faults.isEmpty then 0 else EventKind.faultsWaiting.bit)
  ||| (if s.pos.motion = .still then EventKind.webStill.bit else 0)
  ||| (if s.ring.state = .lost then EventKind.ringLost.bit else 0)

/-- The pending set of a port (R186, R189). -/
def State.pendingSet (s : State) (n : PortId) : KindSet :=
  (s.port n).latched ||| (levels s &&& visible (s.port n).role)

/-- Whether a port's attention line is asserted: its pending and enabled sets share a kind (R190). -/
def State.lineCondition (s : State) (n : PortId) : Bool := s.pendingSet n &&& (s.port n).enabled != 0

/-- Evaluate every attention line (R190). -/
def State.evalLines (s : State) : State := s.mapPorts fun n q => { q with line := s.lineCondition n }

/-- Raise a latched kind: it is added to the pending set of every port whose role may see it (R187). -/
def State.latch (e : EventKind) (s : State) : State :=
  s.mapPorts fun _ q => { q with latched := q.latched ||| (e.bit &&& visible q.role) }

/-- Raise a latched kind if a condition holds. -/
def State.latchIf (c : Bool) (e : EventKind) (s : State) : State := if c then s.latch e else s

/-- The hold condition (R84): the ring is LOST, or hold on fault is yes and a planned screen is FAULTED. -/
def State.holdCondition (s : State) : Bool :=
  s.ring.state == .lost
  || (s.line.holdOnFault && allScreens.any fun k => inSet s.planned k && s.engState k == .faulted)

/-- Evaluate the hold output (R84). -/
def State.evalHold (s : State) : State := s.withRing { s.ring with hold := s.holdCondition }

end Sys2Proof.Machine
end

