-- ==== Sys2Proof/Machine/Frames.lean ====
section
/-! DEFINITION. How a frame of a client port ends and a request is answered: the release of PnSEL, the FRAME reply, the
whole frame that a command of the table stands for, and the role check with the held reply. The word-by-word receive
states are in Machine/Ports.lean. -/

namespace Sys2Proof.Machine

/-- What a block does with a request: the port it comes from, the payload words, the state; the state after and the
answer. -/
abbrev Taker := PortId → List Word → State → State × Answer

/-- Make an answer the reply that a port holds (R166, R168). -/
def State.holdReply (n : PortId) (kind tag : Byte) (a : Answer) (s : State) : State :=
  s.modPort n fun q =>
    { q with held := { kind := kind, tag := tag, status := a.code, index := a.index, words := a.words } }

/-- Finish a port's frame with FRAME and move to a receive state: the header echo carries the kind and tag received,
each 0 where it was not received whole (R164, R166). -/
def Port.finishFrame (q : Port) (rx : RxState) : Port :=
  { q with rx := rx, held := { kind := q.kind.getD 0, tag := q.tag.getD 0, status := .frame, index := 0, words := [] } }

/-- The release of PnSEL at a port, `bits` bits of a word having been received since the last whole word (R164). In
HEADER the kind is received whole from the eighth bit on (assumption log 21). -/
def Port.release (q : Port) (bits : Fin 16) (partialWord : Word) : Port :=
  let up := { q with sel := false, fetch := none }
  match q.rx with
  | .idle => up
  | .done => { up with rx := .idle }
  | .header =>
    if bits = 0 then { up with rx := .idle }
    else
      { up with kind := if 8 ≤ bits.val then some (partialWord.extractLsb' 8 8) else none, tag := none }.finishFrame .idle
  | .count | .payload | .check | .discard => up.finishFrame .idle

/-- PnSEL of port n is released. While RESETN is asserted only the level of the pin changes (R180). -/
def State.releaseSelect (n : PortId) (bits : Fin 16) (partialWord : Word) (s : State) : State :=
  s.modPort n fun q => if s.inReset then { q with sel := false } else q.release bits partialWord

/-- A port that has received a whole good frame, the words before the check word being these; a PnSEL still asserted
from before has been released first (assumption log 1). A payload above 64 words leaves the port in DISCARD (R164). -/
def Port.received (q : Port) (kind tag : Byte) (payload : List Word) : Port :=
  let q' := if q.sel then q.release 0 0 else q
  if payload.length ≤ 64 then
    { q' with
      sel := true, rx := .done, kind := some kind, tag := some tag, count := BitVec.ofNat 16 payload.length,
      payload := payload, check := crc16 (requestBody kind tag payload), fetch := none, dataOut := 0 }
  else
    { q' with
      sel := true, rx := .discard, kind := some kind, tag := some tag, count := BitVec.ofNat 16 payload.length,
      payload := [], check := crc16 [headerWord kind tag, BitVec.ofNat 16 payload.length], fetch := none, dataOut := 0 }

/-- Take a request on port n: the role check, and then the owning block (R168, R177). -/
def answerRequest (k : Kind) (take : Taker) (n : PortId) (tag : Byte) (payload : List Word) (s : State) : State :=
  if permits k (s.port n).role then
    (take n payload s).1.holdReply n k.code tag (take n payload s).2
  else s.holdReply n k.code tag (refuse .role 0)

/-- The state in which port n has just received a whole frame. -/
def State.receiveFrame (n : PortId) (kind tag : Byte) (payload : List Word) (s : State) : State :=
  s.modPort n fun q => q.received kind tag payload

/-- A good request frame of kind k completes on port n: nothing while RESETN is asserted (R180), else the frame is
received and the request taken. -/
def requestFrame (k : Kind) (take : Taker) (n : PortId) (tag : Byte) (payload : List Word) (s : State) : State :=
  if s.inReset then s
  else if payload.length ≤ 64 then answerRequest k take n tag payload (s.receiveFrame n k.code tag payload)
  else s.receiveFrame n k.code tag payload

end Sys2Proof.Machine
end

