-- ==== Sys2Proof/Machine/Position.lean ====
section
/-! DEFINITION. The Position Counter (spec/01): encoder edges, the advance of P at a drive cycle, the line settings and
the geometry checks. -/

namespace Sys2Proof.Machine

/-! ### ENCODER_EDGE -/

/-- The Position Counter after the levels of ENCA and ENCB become a and b (R4): one input changed counts up or down, a
change of both sets the lost-edge flag, no change is no edge. -/
def Position.edge (x : Position) (a b : Bool) : Position :=
  let y := { x with encA := a, encB := b }
  if a ≠ x.encA ∧ b ≠ x.encB then { y with lostEdge := true }
  else if a ≠ x.encA then { y with raw := if a ≠ b then x.raw + 1 else x.raw - 1 }
  else if b ≠ x.encB then { y with raw := if a = b then x.raw + 1 else x.raw - 1 }
  else y

/-- ENCODER_EDGE (R4). While RESETN is asserted the levels change and nothing is counted (R180). -/
def execEncoderEdge (a b : Bool) (s : State) : Host.Outcome State Fault Refusal :=
  .next (if s.inReset then s.withPos { s.pos with encA := a, encB := b } else s.withPos (s.pos.edge a b))

/-! ### The advance at a drive cycle -/

/-- The change of the raw count since the last drive cycle, signed (R5). -/
def Position.change (x : Position) : Int := (x.raw - x.taken).toInt

/-- The clamped change (R5). -/
def Position.clamped (x : Position) : Int := clamp (-2000) 2000 x.change

/-- The new P (R6). -/
def Position.newP (x : Position) : Int := clamp 0 topP (x.p + x.clamped)

/-- ΔP (R6). -/
def Position.deltaP (x : Position) : Int := x.newP - x.p

/-- Whether MOTION_CLAMP is latched (R6). -/
def Position.motionClamp (x : Position) : Bool :=
  x.change != x.clamped || x.newP != x.p + x.clamped || x.lostEdge

/-- The Position Counter after a drive cycle (R5, R6, R8). -/
def Position.advance (x : Position) : Position :=
  let y := { x with taken := x.raw, lostEdge := false, p := x.newP }
  if x.deltaP ≠ 0 then { y with still := 0, motion := .moving }
  else
    let still := min 200 (x.still + 1)
    { y with still := still, motion := if still = 200 then .still else x.motion }

/-- The Position Counter's part of a drive cycle. -/
def State.advancePosition (s : State) : State :=
  (s.withPos s.pos.advance).latchIf s.pos.motionClamp .motionClamp

/-! ### LINE_PUT -/

/-- Whether a screen is ABSENT, PARKED or FAULTED. -/
def EngState.inactive : EngState → Bool
  | .absent | .parked | .faulted => true
  | .armed | .lowering | .printing | .ending => false

/-- Whether every screen is ABSENT, PARKED or FAULTED (R10, R89). -/
def State.allInactive (s : State) : Bool := allScreens.all fun k => (s.engState k).inactive

/-- The ranges of the six line settings (R10). -/
def lineRanges : List (Nat × Nat) := [(40000, 204800), (0, 500000), (1, 4000000), (0, 1), (0, 1000), (0, 1)]

/-- The checks of LINE.PUT (R10) and, when they pass, the settings received. -/
def linePutParse (payload : List Word) (s : State) : Except Answer LineSettings :=
  if s.web.lineState ≠ .setup ∨ s.allInactive = false then .error (refuse .state 0)
  else match exactly 6 payload with
    | .error a => .error a
    | .ok fs =>
      match firstOutside lineRanges fs with
      | some a => .error a
      | none => .ok
          { lScr := valueAt fs 0, dSeam := valueAt fs 1, xInsp := valueAt fs 2, inspectionRequired := valueAt fs 3 == 1,
            tolerance := valueAt fs 4, holdOnFault := valueAt fs 5 == 1 }

/-- The six settings as reply words, in table order (R11). -/
def LineSettings.words (x : LineSettings) : List Word :=
  words2 x.lScr ++ words2 x.dSeam ++ words2 x.xInsp ++ flagWord x.inspectionRequired ++ words1 x.tolerance
    ++ flagWord x.holdOnFault

/-- An accepted LINE.PUT replaces the settings, recomputes L_fab and evaluates the hold output (R11, R33, R84). -/
def State.putLine (x : LineSettings) (s : State) : State :=
  ((s.withLine x).withPhase { s.phase with lFab := stagedRepeat x.lScr s.phase.stretch }).evalHold

def takeLinePut : Taker := fun _ payload s =>
  match linePutParse payload s with
  | .error a => (s, a)
  | .ok x => (s.putLine x, accept x.words)

/-- LINE_PUT (R10, R11). -/
def execLinePut (port : PortId) (tag : Byte) (payload : List Word) (s : State) : Host.Outcome State Fault Refusal :=
  .next (requestFrame .linePut takeLinePut port tag payload s)

/-! ### Geometry checks -/

/-- The geometry checks of RUN.BEGIN (R13): the reason code of the first that fails. -/
def State.geometry (s : State) : Option Nat :=
  if s.line.xInsp = 0 then some 5
  else if allScreens.any fun k => (s.screen k).present && s.line.xInsp ≤ (s.screen k).dist then some 6
  else if s.oven.zones = [] ∨ s.oven.b0 < s.line.xInsp then some 7
  else none

end Sys2Proof.Machine
end

