-- ==== Sys2Proof/Machine/Ring.lean ====
section
/-! DEFINITION. The Ring Controller (spec/05): screen faults and the fault list, the ring turnaround with its slot
evaluation, the setpoint frame, FAULT.TAKE and SCREEN.CLEAR. -/

namespace Sys2Proof.Machine

/-! ### Screen faults (R66, R79, R80) -/

/-- The queue with screen k removed from the printed set of the segment that contains its design coordinate. -/
def unmark (k : ScreenId) (w : Int) (q : List Segment) : List Segment :=
  q.map fun g => if g.holds w then { g with printed := dropFrom g.printed k } else g

/-- The fault list after a fault (R80): a new entry at the tail, or one repeat more in the screen's own entry. -/
def enterFault (e : FaultEntry) (l : List FaultEntry) : List FaultEntry :=
  if l.any fun x => x.screen == e.screen then
    l.map fun x => if x.screen = e.screen then { x with repeats := min 255 (x.repeats + 1) } else x
  else l ++ [e]

/-- What a fault does to the engagement record of its screen (R66, item 2). -/
def Engagement.fault (cause : FaultCause) (e : Engagement) : Engagement :=
  { e with state := .faulted, cause := some cause, window := false }

/-- Engagement Control takes a fault (R66): a screen that was down loses its mark, and a screen that is not FAULTED
becomes FAULTED with the cause. -/
def State.engageFault (k : ScreenId) (cause : FaultCause) (s : State) : State :=
  match s.engState k with
  | .absent | .faulted => s
  | .printing | .ending =>
    (s.withQueue (unmark k (s.design k) s.web.queue)).modEng k (Engagement.fault cause)
  | .parked | .armed | .lowering => s.modEng k (Engagement.fault cause)

/-- A screen fault with its seq, in the order of R79: Engagement Control, the fault list, SCREEN_FAULT. None is raised
for an ABSENT screen. -/
def State.screenFault (k : ScreenId) (cause : FaultCause) (seq : Nat) (s : State) : State :=
  if s.engState k = .absent then s
  else
    let s1 := s.engageFault k cause
    let entry : FaultEntry := { screen := k, cause := cause, seq := seq, p := s.pos.p, repeats := 1 }
    let s2 := s1.withRing { s1.ring with faults := enterFault entry s1.ring.faults }
    s2.latchIf (s.engState k != .faulted || !(s.ring.faults.any fun x => x.screen == k)) .screenFault

/-- The seq of the queued segment that contains the design coordinate of screen k, 0 if none does (R79, item 2). -/
def State.seqUnder (s : State) (k : ScreenId) : Nat := ((containing s.web.queue (s.design k)).map Segment.seq).getD 0

/-! ### The turnaround (R73 to R79) -/

/-- A present screen's ring record after its slot is evaluated (R74). -/
def Screen.evalSlot (x : Screen) (reply : Option DriveReply) : Screen :=
  match reply with
  | some r => { x with miss := 0, last := some r }
  | none => { x with miss := min 4 (x.miss + 1), last := none }

/-- The fault a slot gives its screen, from the record before the evaluation and the ring state after it (R75, R76). -/
def Screen.slotFault (x : Screen) (reply : Option DriveReply) (ring : RingState) : Option FaultCause :=
  match reply with
  | some r =>
    match r.state with
    | .fault => if x.last.map DriveReply.state = some .fault then none else some .drive
    | .raised | .travel => if x.eng.state = .printing ∨ x.eng.state = .ending then some .dropped else none
    | .lowered => none
  | none => if x.miss = 3 then some (if ring = .lost then .ring else .noReply) else none

/-- The ring state after a turnaround's slots are evaluated (R77). -/
def ringAfter (before : RingState) (t : Vector Screen 24) (reply : ScreenId → Option DriveReply) : RingState :=
  let present := allScreens.filter fun k => t[k].present
  match before with
  | .down => .down
  | .up => if present ≠ [] ∧ present.all (fun k => t[k].miss == 4) then .lost else .up
  | .lost => if present.any (fun k => (reply k).isSome) then .up else .lost

/-- The turnaround of the frame in flight, as one event, with the reply of each slot (R73, R74, R77, R79). -/
def State.turnaround (reply : ScreenId → Option DriveReply) (s : State) : State :=
  let s1 := s.mapScreens fun k x => if x.present then x.evalSlot (reply k) else x
  let ring' := ringAfter s.ring.state s1.screens reply
  let s2 := s1.withRing { s1.ring with inFlight := none, timer := false, state := ring' }
  let s3 := allScreens.foldl
    (fun u k =>
      if (s.screen k).present then
        match (s.screen k).slotFault (reply k) ring' with
        | some c => u.screenFault k c (u.seqUnder k)
        | none => u
      else u) s2
  s3.evalHold.evalLines

/-- RING_FRAME_RETURN (R73, R185): a frame that passes its header check and carries the count of the frame in flight
closes it; any other is discarded. -/
def execRingFrameReturn (words : List Word) (s : State) : Host.Outcome State Fault Refusal :=
  .next <|
    if s.inReset then s
    else match s.ring.inFlight with
      | none => s
      | some count => if headerMatches count words then s.turnaround (slotReply words) else s

/-- TURNAROUND_EXPIRY (R73): the slots received of a frame whose header has passed its check are used, the others are
misses. Nothing runs out while the timer is stopped. -/
def execTurnaroundExpiry (received : List Word) (s : State) : Host.Outcome State Fault Refusal :=
  .next <|
    if s.inReset ∨ s.ring.timer = false then s
    else match s.ring.inFlight with
      | none => s
      | some count =>
        s.turnaround (if headerMatches count received then slotReply received else fun _ => none)

/-! ### The setpoint frame (R72, R184) -/

/-- The two words of screen k's slot. -/
def State.slotWords (s : State) (k : ScreenId) : List Word :=
  sentSlot k (s.engState k).command
    (if (s.screen k).present then BitVec.ofInt 16 (s.screen k).chan.setpoint else 0)

/-- The setpoint frame with a frame count, as it stands. -/
def State.setpointFrame (s : State) (count : Byte) : List Word :=
  ringHeader count :: ~~~(ringHeader count) :: allScreens.flatMap s.slotWords

/-- The send of a drive cycle (R72). -/
def State.sendFrame (s : State) : State :=
  let count := s.ring.frameCount + 1
  s.withRing { s.ring with frameCount := count, inFlight := some count, timer := true, sent := s.setpointFrame count }

/-! ### FAULT_TAKE -/

/-- The five fields of an entry as reply words (R81). -/
def FaultEntry.words (e : FaultEntry) : List Word :=
  words1 e.screen.val ++ words1 e.cause.toCode ++ words2 e.seq ++ words3 e.p ++ words1 e.repeats

def takeFaultTake : Taker := fun _ payload s =>
  match noFields payload with
  | some a => (s, a)
  | none =>
    match s.ring.faults with
    | [] => (s, refuse .empty 0)
    | e :: rest =>
      ((s.withRing { s.ring with faults := rest }).evalLines, accept (e.words ++ words1 rest.length))

/-- FAULT_TAKE (R81). -/
def execFaultTake (port : PortId) (tag : Byte) (payload : List Word) (s : State) : Host.Outcome State Fault Refusal :=
  .next (requestFrame .faultTake takeFaultTake port tag payload s)

/-! ### SCREEN_CLEAR -/

/-- Whether a last reply lets SCREEN.CLEAR pass: RAISED, TRAVEL or LOWERED (R82, check 3). -/
def answersWell (last : Option DriveReply) : Bool :=
  match last with
  | some r => r.state != .fault
  | none => false

/-- The checks of SCREEN.CLEAR (R82) and, when they pass, the screen. -/
def screenClearParse (payload : List Word) (s : State) : Except Answer ScreenId :=
  match oneScreen payload with
  | .error a => .error a
  | .ok k =>
    if s.engState k ≠ .faulted then .error (refuse .state 0)
    else if answersWell (s.screen k).last = false then .error (refuse .state 0)
    else if inSet s.planned k ∧ s.web.lineState = .run ∧ groupAligned s.screens k = false then
      .error (refuse .state 0)
    else .ok k

/-- What an accepted SCREEN.CLEAR leaves of the engagement record (R83). -/
def State.cleared (s : State) (k : ScreenId) (e : Engagement) : Engagement :=
  if inSet s.planned k ∧ s.web.lineState = .run then
    { e with state := .armed, cause := none, window := false, stopSeq := 0, startSeq := s.web.nextSeq }
  else { e with state := .parked, cause := none, window := false, stopSeq := 0, startSeq := 0 }

def takeScreenClear : Taker := fun _ payload s =>
  match screenClearParse payload s with
  | .error a => (s, a)
  | .ok k =>
    let s1 := (s.modEng k (s.cleared k)).evalHold
    (s1, accept (words1 (s1.engState k).toCode ++ words2 (s1.screen k).eng.startSeq ++ flagWord (inSet s1.planned k)))

/-- SCREEN_CLEAR (R82, R83). -/
def execScreenClear (port : PortId) (tag : Byte) (payload : List Word) (s : State) : Host.Outcome State Fault Refusal :=
  .next (requestFrame .screenClear takeScreenClear port tag payload s)

end Sys2Proof.Machine
end

