-- ==== Sys2Proof/Machine/Grader.lean ====
section
/-! DEFINITION. The Exit Grader (spec/09): faults and grade of a leaving record, roll tallies, segment and roll reports,
the exit report queue, REPORT.TAKE and ROLL.GET. -/

namespace Sys2Proof.Machine

/-! ### Faults and grade (R150 to R152) -/

/-- Whether inspection is required and some expected screen other than screen 0 has no entry in the register list. -/
def uninspected (required : Bool) (g : Segment) : Bool :=
  required && allScreens.any fun k => k != 0 && inSet g.expected k && !(g.regs.any fun e => e.screen == k)

/-- The faults of a record that leaves, in the ranking of R152 (R150, R151). -/
def faultsOf (line : LineSettings) (cure : CureProfile) (way : WayOut) (g : Segment) : List Grade :=
  match way with
  | .evicted | .aborted => [.lost]
  | .exit =>
    (if g.seam then [.seam] else [])
    ++ (if g.printed ≠ g.expected then [.incomplete] else [])
    ++ (if cure.doseMax < g.dose ∨ cure.tScorch < g.peak then [.overcure] else [])
    ++ (if g.dose < cure.doseMin then [.undercure] else [])
    ++ (if g.cureUnknown then [.cureUnknown] else [])
    ++ (if g.regs.any RegEntry.outOfTol then [.misregister] else [])
    ++ (if uninspected line.inspectionRequired g then [.uninspected] else [])

/-- The grade: the first fault in the ranking, else PASS (R152). -/
def gradeOf (faults : List Grade) : Grade := faults.headD .pass

/-- A fault set as its word's bits, the fault of grade code c in bit c − 1 (R174). -/
def faultBits (faults : List Grade) : BitVec 8 := faults.foldl (fun b f => b ||| BitVec.twoPow 8 (f.toCode - 1)) 0

/-! ### Roll tallies (R153) -/

/-- One more leaving of a grade. -/
def Tally.add (g : Grade) (t : Tally) : Tally :=
  match g with
  | .pass => { t with pass := t.pass + 1 }
  | .lost => { t with lost := t.lost + 1 }
  | .seam => { t with seam := t.seam + 1 }
  | .incomplete => { t with incomplete := t.incomplete + 1 }
  | .overcure => { t with overcure := t.overcure + 1 }
  | .undercure => { t with undercure := t.undercure + 1 }
  | .cureUnknown => { t with cureUnknown := t.cureUnknown + 1 }
  | .misregister => { t with misregister := t.misregister + 1 }
  | .uninspected => { t with uninspected := t.uninspected + 1 }

/-- The nine counts in the order of the roll report (R158). -/
def Tally.counts (t : Tally) : List Nat :=
  [t.pass, t.lost, t.seam, t.incomplete, t.overcure, t.undercure, t.cureUnknown, t.misregister, t.uninspected]

/-- The sum of the nine counts. -/
def Tally.sum (t : Tally) : Nat := t.counts.foldl (· + ·) 0

/-- The tally of the record's roll at its leaving (R153); total length saturates at 2^48 − 1. -/
def Roll.leave (grade : Grade) (length : Int) (r : Roll) : Roll :=
  { r with tally := r.tally.add grade, left := r.left - 1,
           totalLength := min 281474976710655 (r.totalLength + length.toNat) }

/-! ### Reports (R154 to R158) -/

/-- The segment report of a leaving record (R154). -/
def segmentReport (way : WayOut) (faults : List Grade) (g : Segment) : SegmentReport :=
  { seq := g.seq, roll := g.roll, wayOut := way, grade := gradeOf faults, faults := faultBits faults, start := g.start,
    length := g.length, dose := g.dose, peak := g.peak, expected := g.expected, printed := g.printed,
    outOfTol := screensWhere fun k => g.regs.any fun e => e.screen == k && e.outOfTol,
    largestError := g.regs.foldl (fun m e => max m e.error.natAbs) 0 }

/-- The roll report of a roll that closes (R158). -/
def rollReport (reason : CloseReason) (r : Roll) : RollReport :=
  { id := r.id, reason := reason, seamAt := r.seamAt, firstSeq := r.firstSeq, lastSeq := r.lastSeq,
    segments := r.tally.sum, tally := r.tally, totalLength := r.totalLength }

/-- A report is offered to the exit report queue: appended when it holds fewer than 32, else lost (R155, R156). -/
def State.offer (r : Report) (s : State) : State :=
  if s.reports.length < 32 then s.withReports (s.reports ++ [r]) else s.latch .reportLost

/-- Whether a grade latches CURE_FAULT (R157). -/
def Grade.isCure : Grade → Bool
  | .overcure | .undercure | .cureUnknown => true
  | .pass | .lost | .seam | .incomplete | .misregister | .uninspected => false

/-- The Exit Grader's work for a record already removed from the queue (R149). -/
def State.gradeRecord (way : WayOut) (g : Segment) (s : State) : State :=
  let faults := faultsOf s.line s.cure way g
  let s1 := s.withRolls (s.web.rolls.map fun r => if r.id = g.roll then r.leave (gradeOf faults) g.length else r)
  (s1.offer (.segment (segmentReport way faults g))).latchIf (gradeOf faults).isCure .cureFault

/-- A roll closes: it is removed from the table, its report is offered and ROLL_CLOSED is latched (R158). -/
def State.closeRoll (reason : CloseReason) (r : Roll) (s : State) : State :=
  ((s.withRolls (s.web.rolls.filter fun x => x.id != r.id)).offer (.roll (rollReport reason r))).latch .rollClosed

/-- Every roll of the table closes, in table order (R92, R93). -/
def State.closeAllRolls (reason : CloseReason) (s : State) : State :=
  s.web.rolls.foldl (fun u r => u.closeRoll reason r) s

/-- The NEXT_ROLL test of R106 for one roll: it holds no queued segment while a later roll of the table holds one. -/
def State.nextRollTest (id : Nat) (s : State) : State :=
  match s.web.rolls.find? fun r => r.id == id with
  | none => s
  | some r =>
    let later := (s.web.rolls.dropWhile fun x => x.id != id).drop 1
    if rollQueued s.web.queue id = false ∧ later.any (fun x => rollQueued s.web.queue x.id) then
      s.closeRoll .nextRoll r
    else s

/-! ### REPORT_TAKE -/

/-- A segment report as reply words (R154, R159). -/
def SegmentReport.words (r : SegmentReport) : List Word :=
  words2 r.seq ++ words1 r.roll ++ words1 r.wayOut.toCode ++ words1 r.grade.toCode ++ words1 r.faults.toNat
    ++ words3 r.start ++ words2 r.length ++ words2 r.dose ++ words1 r.peak ++ setWords r.expected ++ setWords r.printed
    ++ setWords r.outOfTol ++ words1 r.largestError

/-- Nine grade counts as reply words. -/
def Tally.words (t : Tally) : List Word := t.counts.flatMap fun c => words2 c

/-- A roll report as reply words (R158, R159). -/
def RollReport.words (r : RollReport) : List Word :=
  words1 r.id ++ words1 r.reason.toCode ++ seamWords r.seamAt ++ seqWords r.firstSeq ++ seqWords r.lastSeq
    ++ words2 r.segments ++ r.tally.words ++ words3 r.totalLength

/-- A report's kind and fields as reply words (R159, R183). -/
def Report.words : Report → List Word
  | .segment r => words1 0 ++ r.words
  | .roll r => words1 1 ++ r.words

def takeReportTake : Taker := fun _ payload s =>
  match noFields payload with
  | some a => (s, a)
  | none =>
    match s.reports with
    | [] => (s, refuse .empty 0)
    | r :: rest => ((s.withReports rest).evalLines, accept (r.words ++ words1 rest.length))

/-- REPORT_TAKE (R159). -/
def execReportTake (port : PortId) (tag : Byte) (payload : List Word) (s : State) : Host.Outcome State Fault Refusal :=
  .next (requestFrame .reportTake takeReportTake port tag payload s)

/-! ### ROLL_GET -/

/-- An open roll in the list of R160. -/
def Roll.listWords (r : Roll) : List Word := words1 r.id ++ seamWords r.seamAt ++ words1 r.left

/-- The fields of an open roll (R160). -/
def Roll.words (r : Roll) : List Word :=
  words1 r.id ++ seamWords r.seamAt ++ seqWords r.firstSeq ++ seqWords r.lastSeq ++ words1 r.left ++ r.tally.words
    ++ words3 r.totalLength

/-- The answer of ROLL.GET (R160). -/
def rollGetAnswer (payload : List Word) (s : State) : Answer :=
  match fields payload with
  | [] => accept (words1 s.web.rolls.length ++ s.web.rolls.flatMap Roll.listWords)
  | _ :: _ =>
    match oneField 1 65535 payload with
    | .error a => a
    | .ok id =>
      match s.web.rolls.find? fun r => r.id == id with
      | none => refuse .gone 0
      | some r => accept r.words

def takeRollGet : Taker := fun _ payload s => (s, rollGetAnswer payload s)

/-- ROLL_GET (R160). -/
def execRollGet (port : PortId) (tag : Byte) (payload : List Word) (s : State) : Host.Outcome State Fault Refusal :=
  .next (requestFrame .rollGet takeRollGet port tag payload s)

end Sys2Proof.Machine
end

