-- ==== Sys2Proof/Machine/Engagement.lean ====
section
/-! DEFINITION. Engagement Control (spec/04): ENGAGE and LIFT, the transitions at a forward crossing with the marking of
printed sets, the lead window, and what drain and abort do to the screens. -/

namespace Sys2Proof.Machine

/-- The screens whose engagement state differs between two states. -/
def changedSet (s t : State) : ScreenSet := screensWhere fun k => s.engState k != t.engState k

/-! ### ENGAGE (R55 to R58) -/

/-- A PARKED screen arms (R56). -/
def Engagement.arm (nextSeq : Nat) (e : Engagement) : Engagement :=
  { e with state := .armed, cause := none, startSeq := nextSeq, stopSeq := 0, window := false }

/-- What ENGAGE does to one screen (R56, R57). A FAULTED screen is met only among the relatives of a UNIFIED group: it
stays FAULTED and is planned. -/
def State.engageScreen (k : ScreenId) (s : State) : State :=
  match s.engState k with
  | .parked => (s.modEng k (Engagement.arm s.web.nextSeq)).withPlanned (addTo s.planned k)
  | .ending => (s.modEng k fun e => { e with state := .printing, stopSeq := 0 }).withPlanned (addTo s.planned k)
  | .faulted => s.withPlanned (addTo s.planned k)
  | .absent | .armed | .lowering | .printing => s

/-- The screens an ENGAGE acts on, in order: the named one and, for the anchor of a UNIFIED group, its relatives (R57). -/
def engageTargets (t : Vector Screen 24) (k : ScreenId) : List ScreenId :=
  if isAnchor t[k] && t[k].ext then k :: relativesOf t k else [k]

/-- Whether a screen is a relative of a UNIFIED group. -/
def unifiedRelative (t : Vector Screen 24) (k : ScreenId) : Bool := t[k].kind == .relative && inUnified t k

/-- Whether the anchor of the group of screen k is planned. -/
def State.anchorPlanned (s : State) (k : ScreenId) : Bool :=
  match anchorOf s.screens k with
  | some a => inSet s.planned a
  | none => false

/-- The checks of ENGAGE (R55) and, when they pass, the screen. -/
def engageParse (payload : List Word) (s : State) : Except Answer ScreenId :=
  match oneScreen payload with
  | .error a => .error a
  | .ok k =>
    if s.web.lineState ≠ .run then .error (refuse .state 0)
    else if (s.screen k).present = false then .error (refuse .state 0)
    else if unifiedRelative s.screens k then .error (refuse .grouped 0)
    else if s.engState k = .faulted then .error (refuse .state 0)
    else if (s.screen k).kind = .relative ∧ (s.engState k = .parked ∨ s.engState k = .ending)
        ∧ s.anchorPlanned k = false then .error (refuse .state 0)
    else if (engageTargets s.screens k).any (fun j => s.engState j == .parked) ∧ groupAligned s.screens k = false then
      .error (refuse .state 0)
    else .ok k

/-- The effect of an accepted ENGAGE (R56, R57, R84). -/
def State.engage (k : ScreenId) (s : State) : State :=
  ((engageTargets s.screens k).foldl (fun u j => u.engageScreen j) s).evalHold

/-- The values of an accepted ENGAGE's reply (R58). -/
def engageWords (k : ScreenId) (s t : State) : List Word :=
  words1 (t.engState k).toCode ++ words2 (t.screen k).eng.startSeq ++ words2 (t.screen k).eng.stopSeq
    ++ setWords (changedSet s t) ++ setWords t.planned

def takeEngage : Taker := fun _ payload s =>
  match engageParse payload s with
  | .error a => (s, a)
  | .ok k => (s.engage k, accept (engageWords k s (s.engage k)))

/-- ENGAGE (R55 to R58). -/
def execEngage (port : PortId) (tag : Byte) (payload : List Word) (s : State) : Host.Outcome State Fault Refusal :=
  .next (requestFrame .engage takeEngage port tag payload s)

/-! ### LIFT (R64, R65) -/

/-- What the table of R64 does to an engagement record. -/
def Engagement.lift (nextSeq : Nat) (e : Engagement) : Engagement :=
  match e.state with
  | .armed => { e with state := .parked, window := false }
  | .lowering => { e with state := .parked }
  | .printing => { e with state := .ending, stopSeq := nextSeq }
  | .absent | .parked | .ending | .faulted => e

/-- One screen is lifted: the table of R64, and it leaves the planned set. -/
def State.liftScreen (k : ScreenId) (s : State) : State :=
  (s.modEng k (Engagement.lift s.web.nextSeq)).withPlanned (dropFrom s.planned k)

/-- The screens a LIFT acts on, in order: the named one and, for an anchor, its planned relatives (R65). -/
def State.liftTargets (s : State) (k : ScreenId) : List ScreenId :=
  if isAnchor (s.screen k) then k :: (relativesOf s.screens k).filter fun j => inSet s.planned j else [k]

/-- The checks of LIFT (R64) and, when they pass, the screen. -/
def liftParse (payload : List Word) (s : State) : Except Answer ScreenId :=
  match oneScreen payload with
  | .error a => .error a
  | .ok k => if unifiedRelative s.screens k then .error (refuse .grouped 0) else .ok k

/-- The effect of an accepted LIFT (R64, R65, R84). -/
def State.lift (k : ScreenId) (s : State) : State :=
  ((s.liftTargets k).foldl (fun u j => u.liftScreen j) s).evalHold

/-- The values of an accepted LIFT's reply (R65). -/
def liftWords (k : ScreenId) (s t : State) : List Word :=
  words1 (t.engState k).toCode ++ words2 (t.screen k).eng.stopSeq ++ setWords (changedSet s t)
    ++ setWords (s.planned &&& ~~~t.planned) ++ setWords t.planned

def takeLift : Taker := fun _ payload s =>
  match liftParse payload s with
  | .error a => (s, a)
  | .ok k => (s.lift k, accept (liftWords k s (s.lift k)))

/-- LIFT (R64, R65). -/
def execLift (port : PortId) (tag : Byte) (payload : List Word) (s : State) : Host.Outcome State Fault Refusal :=
  .next (requestFrame .lift takeLift port tag payload s)

/-! ### Drain and abort (R67, R68) -/

/-- RUN.DRAIN lifts every planned screen, in index order (R67). -/
def State.liftPlanned (s : State) : State :=
  (allScreens.filter fun k => inSet s.planned k).foldl (fun u k => u.liftScreen k) s

/-- What RUN.ABORT does to an engagement record (R68). -/
def Engagement.abort (e : Engagement) : Engagement :=
  match e.state with
  | .armed | .lowering | .printing | .ending =>
    { e with state := .parked, window := false, startSeq := 0, stopSeq := 0 }
  | .absent | .parked | .faulted => e

/-- RUN.ABORT puts the screens down and empties the planned set (R68). -/
def State.abortScreens (s : State) : State :=
  (s.mapScreens fun _ x => { x with eng := x.eng.abort }).withPlanned 0

/-! ### Crossings (R60 to R63) -/

/-- The seq entered at a forward crossing of screen k (R54). -/
def State.enteredSeq (s : State) (k : ScreenId) (newGround : Bool) : Nat :=
  if newGround then s.web.nextSeq
  else ((containing s.web.queue (s.design k)).map Segment.seq).getD s.web.nextSeq

/-- The queue with screen k added to the printed set of the segment that contains its design coordinate. -/
def markIn (k : ScreenId) (w : Int) (q : List Segment) : List Segment :=
  q.map fun g => if g.holds w then { g with printed := addTo g.printed k } else g

/-- Mark the segment entered; at the crossing that hands new ground over, no queued segment is marked (R61). -/
def State.mark (k : ScreenId) (newGround : Bool) (s : State) : State :=
  if newGround then s else s.withQueue (markIn k (s.design k) s.web.queue)

/-- Whether a drive's last reply is LOWERED. -/
def isLowered (last : Option DriveReply) : Bool :=
  match last with
  | some r => r.state == .lowered
  | none => false

/-- A forward crossing of screen k handed to Engagement Control (R60 to R63). -/
def State.cross (k : ScreenId) (newGround : Bool) (s : State) : State :=
  match s.engState k with
  | .lowering =>
    if isLowered (s.screen k).last then (s.modEng k fun e => { e with state := .printing }).mark k newGround
    else s.screenFault k .late (s.enteredSeq k newGround)
  | .printing => s.mark k newGround
  | .ending =>
    if (s.screen k).eng.stopSeq ≤ s.enteredSeq k newGround then s.modEng k fun e => { e with state := .parked }
    else s.mark k newGround
  | .absent | .parked | .armed | .faulted => s

/-! ### The lead window (R59) -/

/-- The window test of an ARMED channel (R59), its arriving seq being given. -/
def Screen.window (arriving : Nat) (x : Screen) : Screen :=
  if x.eng.state ≠ .armed then x
  else if x.chan.r < x.chan.lcur - x.tuning.lead then { x with eng := { x.eng with window := true } }
  else if x.eng.window ∧ x.eng.startSeq ≤ arriving then
    { x with eng := { x.eng with state := .lowering, window := false } }
  else x

/-- The window tests of a drive cycle (R59). -/
def State.windowTests (s : State) : State := s.mapScreens fun k x => x.window (arrivingSeq s (s.design k))

end Sys2Proof.Machine
end

