-- ==== Sys2Proof/Machine/Web.lean ====
section
/-! DEFINITION. The Web Map (spec/06): creation and eviction of segments, camera arrival and exit, the line states and
their requests, seams and rolls, SEGMENT.GET and WEB.WHERE. -/

namespace Sys2Proof.Machine

/-! ### Creation (R95 to R98, R103) -/

/-- The start of a new record: the tail's end, or P − r_0 on an empty queue (R96). -/
def State.newStart (s : State) : Int :=
  match s.web.queue.getLast? with
  | some g => g.start + g.length
  | none => s.pos.p - (s.screen 0).chan.r

/-- Whether a roll is the opening roll, or its seam is at most a record's last coordinate (R103). -/
def Roll.opensBy (last : Int) (r : Roll) : Bool :=
  match r.seamAt with
  | none => true
  | some c => c ≤ last

/-- The roll a record with this last coordinate belongs to: the last roll of the table that is the opening roll or
whose seam is at most that coordinate (R103); the first roll of the table where it has none such, so that every record
names a roll of the table (R102; assumption log 31). -/
def rollFor (rolls : List Roll) (last : Int) : Option Roll := (rolls.filter (Roll.opensBy last)).getLast?.or rolls.head?

/-- Whether a seam of the table lies within a range of coordinates (R103). -/
def seamWithin (rolls : List Roll) (first last : Int) : Bool :=
  rolls.any fun r => match r.seamAt with | none => false | some c => decide (first ≤ c ∧ c ≤ last)

/-- The record a creation forms (R94, R95). -/
def State.newSegment (s : State) : Segment :=
  let start := s.newStart
  let length := (s.screen 0).chan.lcur
  { seq := s.web.nextSeq
    roll := ((rollFor s.web.rolls (start + length - 1)).map Roll.id).getD 0
    start := start, length := length, stretch := s.phase.stretch
    expected := s.planned
    printed := if s.engState 0 = .printing then addTo 0 0 else 0
    regs := [], camera := false, dose := 0, peak := 0
    seam := seamWithin s.web.rolls start (start + length - 1)
    cureUnknown := false }

/-- A roll gains its newest record (R95, step 4). -/
def Roll.gain (seq : Nat) (r : Roll) : Roll :=
  { r with left := r.left + 1, firstSeq := some (r.firstSeq.getD seq), lastSeq := some seq }

/-- The head leaves by eviction (R97). -/
def State.evict (s : State) : State :=
  match s.web.queue with
  | [] => s
  | g :: rest => (((s.withQueue rest).gradeRecord .evicted g).latch .segmentEvicted).nextRollTest g.roll

/-- The next seq advances after a creation (R98). -/
def State.advanceSeq (s : State) : State :=
  if s.web.nextSeq = 4294967295 then (s.withWeb { s.web with exhausted := true }).latch .seqExhausted
  else s.withWeb { s.web with nextSeq := s.web.nextSeq + 1 }

/-- A record joins the tail (R95, steps 3 to 6). -/
def State.appendSegment (s : State) : State :=
  let g := s.newSegment
  let s1 := (s.withQueue (s.web.queue ++ [g])).withRolls
    (s.web.rolls.map fun r => if r.id = g.roll then r.gain g.seq else r)
  let earlier := s1.web.rolls.takeWhile fun r => r.id != g.roll
  (earlier.foldl (fun u r => u.nextRollTest r.id) s1).advanceSeq

/-- The Web Map is asked to create a segment (R95). -/
def State.create (s : State) : State :=
  if s.web.exhausted then s.latch .seqExhausted
  else if 256 ≤ s.web.queue.length then s.evict.appendSegment
  else s.appendSegment

/-! ### Camera and exit (R99, R100, R92) -/

/-- Whether a record reaches the camera now. -/
def Segment.reaches (p xInsp : Int) (g : Segment) : Bool := !g.camera && xInsp ≤ p - g.start

/-- The camera test of a drive cycle (R99). -/
def State.cameraTest (s : State) : State :=
  (s.withQueue (s.web.queue.map fun g => { g with camera := g.camera || s.line.xInsp ≤ s.pos.p - g.start })).latchIf
    (s.web.queue.any fun g => g.reaches s.pos.p s.line.xInsp) .segmentAtCamera

/-- A drain completes (R92). -/
def State.completeDrain (s : State) : State :=
  let s1 := (s.closeAllRolls .drain).latch .drainDone
  s1.withWeb { s1.web with lineState := .setup }

/-- In DRAIN with an empty queue the drain completes. -/
def State.drainIfEmpty (s : State) : State :=
  if s.web.lineState = .drain ∧ s.web.queue = [] then s.completeDrain else s

/-- The head leaves by exit: graded, the NEXT_ROLL test, and a drain that this empties completes (R100, R92). -/
def State.exitHead (g : Segment) (rest : List Segment) (s : State) : State :=
  (((s.withQueue rest).gradeRecord .exit g).nextRollTest g.roll).drainIfEmpty

/-- The exit test, repeated on at most n heads (R100). -/
def State.exitLoop (xExit : Int) : Nat → State → State
  | 0, s => s
  | n + 1, s =>
    match s.web.queue with
    | [] => s
    | g :: rest =>
      if xExit ≤ s.pos.p - g.start - g.length then State.exitLoop xExit n (s.exitHead g rest) else s

/-- The exit test of a drive cycle (R100). -/
def State.exitTest (s : State) : State :=
  match s.oven.exit with
  | none => s
  | some x => s.exitLoop x s.web.queue.length

/-- The Web Map's tests at a drive cycle, in RUN and DRAIN (R99, R100). -/
def State.webTests (s : State) : State := if s.web.lineState = .setup then s else s.cameraTest.exitTest

/-! ### RUN_BEGIN, RUN_DRAIN, RUN_ABORT -/

/-- The checks of RUN.BEGIN (R89): the reason code of the first that fails. -/
def State.runBeginReason (s : State) : Option Nat :=
  if s.web.lineState ≠ .setup then some 1
  else if (s.screen 0).present = false then some 2
  else if s.oven.zones = [] then some 3
  else if s.allInactive = false then some 4
  else s.geometry

/-- The effect of an accepted RUN.BEGIN, in the order of R90. -/
def State.runBegin (s : State) : State :=
  (s.withPhase { s.phase with highWater := (s.screen 0).chan.n }).withWeb
    { s.web with rolls := s.web.rolls ++ [Roll.opened s.web.nextRollId none], nextRollId := nextId s.web.nextRollId,
                 lastSeam := none, lineState := .run }

def takeRunBegin : Taker := fun _ payload s =>
  match noFields payload with
  | some a => (s, a)
  | none =>
    match s.runBeginReason with
    | some reason => (s, { code := .state, index := 0, words := words1 reason })
    | none => (s.runBegin, accept (words1 s.web.nextRollId ++ words2 s.web.nextSeq ++ words3 s.pos.p))

/-- RUN_BEGIN (R89, R90). -/
def execRunBegin (port : PortId) (tag : Byte) (payload : List Word) (s : State) : Host.Outcome State Fault Refusal :=
  .next (requestFrame .runBegin takeRunBegin port tag payload s)

/-- The effect of an accepted RUN.DRAIN (R91). -/
def State.runDrain (s : State) : State :=
  ((s.withWeb { s.web with lineState := .drain }).liftPlanned.drainIfEmpty).evalHold.evalLines

def takeRunDrain : Taker := fun _ payload s =>
  match noFields payload with
  | some a => (s, a)
  | none =>
    if s.web.lineState ≠ .run then (s, refuse .state 0)
    else
      (s.runDrain, accept (words1 s.runDrain.web.lineState.toCode ++ words1 s.runDrain.web.queue.length
        ++ words2 s.runDrain.web.nextSeq))

/-- RUN_DRAIN (R91). -/
def execRunDrain (port : PortId) (tag : Byte) (payload : List Word) (s : State) : Host.Outcome State Fault Refusal :=
  .next (requestFrame .runDrain takeRunDrain port tag payload s)

/-- Every queued segment leaves, head first, graded LOST (R93, step 1). -/
def State.abortSegments (s : State) : State :=
  s.web.queue.foldl (fun u g => (u.withQueue (u.web.queue.drop 1)).gradeRecord .aborted g) s

/-- The effect of an accepted RUN.ABORT, in the order of R93. -/
def State.runAbort (s : State) : State :=
  let s1 := (s.abortSegments.closeAllRolls .abort).abortScreens
  (s1.withWeb { s1.web with lineState := .setup }).evalHold.evalLines

/-- The checks of R93 and the effect. DEDUCED: a field is answered RANGE before the line state is tested; R93 gives its
two refusals no order, and in SETUP a field draws either (assumption log 32, unsafe). -/
def takeRunAbort : Taker := fun _ payload s =>
  match noFields payload with
  | some a => (s, a)
  | none =>
    if s.web.lineState = .setup then (s, refuse .state 0)
    else (s.runAbort, accept (words1 s.web.queue.length ++ words1 s.web.rolls.length))

/-- RUN_ABORT (R93). -/
def execRunAbort (port : PortId) (tag : Byte) (payload : List Word) (s : State) : Host.Outcome State Fault Refusal :=
  .next (requestFrame .runAbort takeRunAbort port tag payload s)

/-! ### SEAM_PULSE (R104, R105) -/

/-- The former last roll after a seam has moved records from it (R105, step 3). -/
def Roll.lose (moved : Nat) (lowest : Nat) (r : Roll) : Roll :=
  { r with left := r.left - moved
           firstSeq := if r.firstSeq = some lowest then none else r.firstSeq
           lastSeq := if r.firstSeq = some lowest then none else some (lowest - 1) }

/-- The roll a seam opens, with the records that move to it (R105, steps 1 and 3). -/
def seamRoll (id : Nat) (c : Int) (moved : List Segment) : Roll :=
  { Roll.opened id (some c) with
    left := moved.length, firstSeq := moved.head?.map Segment.seq, lastSeq := moved.getLast?.map Segment.seq }

/-- A seam is recorded at coordinate c (R105). -/
def State.recordSeam (c : Int) (s : State) : State :=
  let id := s.web.nextRollId
  let moved := s.web.queue.filter fun g => c ≤ g.lastCoord
  let former := s.web.rolls.getLast?
  let queue := s.web.queue.map fun g =>
    if c ≤ g.lastCoord then { g with roll := id, seam := g.seam || g.holds c } else g
  let rolls := match moved, former with
    | m :: _, some f => s.web.rolls.map fun r => if r.id = f.id then r.lose moved.length m.seq else r
    | _, _ => s.web.rolls
  let s1 := s.withWeb
    { s.web with queue := queue, rolls := rolls ++ [seamRoll id c moved], nextRollId := nextId id, lastSeam := some c }
  match moved, former with
  | _ :: _, some f => s1.nextRollTest f.id
  | _, _ => s1

/-- Whether a seam at c stands too close to the last one (R104, test 3). -/
def State.seamTooClose (s : State) (c : Int) : Bool :=
  match s.web.lastSeam with
  | none => false
  | some last => c < last + 2 * s.phase.lFab

/-- The tests of a seam pulse (R104). -/
def State.seamPulse (s : State) : State :=
  let c := s.pos.p + s.line.dSeam
  if s.line.dSeam = 0 then s
  else if s.web.lineState ≠ .run then s
  else if s.seamTooClose c then s
  else if 8 ≤ s.web.rolls.length then (s.latch .rollTableFull).evalLines
  else (s.recordSeam c).evalLines

/-- SEAM_PULSE (R104); edges are not counted while RESETN is asserted. -/
def execSeamPulse (s : State) : Host.Outcome State Fault Refusal := .next (if s.inReset then s else s.seamPulse)

/-! ### SEGMENT_GET and WEB_WHERE -/

/-- Part 0 of SEGMENT.GET (R108). -/
def State.segmentWords (s : State) (g : Segment) : List Word :=
  words2 g.seq ++ words1 g.roll ++ words3 g.start ++ words2 g.length ++ words1 g.stretch ++ setWords g.expected
    ++ setWords g.printed ++ flagWord g.camera ++ flagWord g.seam ++ flagWord g.cureUnknown ++ words2 g.dose
    ++ words1 g.peak ++ words1 (s.stage g).toCode ++ words3 (s.pos.p - g.start) ++ words3 s.pos.p
    ++ words1 g.regs.length

/-- An entry of a register list as reply words (R108). -/
def RegEntry.words (e : RegEntry) : List Word := words1 e.screen.val ++ words1 e.error ++ flagWord e.outOfTol

/-- Part 1 of SEGMENT.GET (R108). -/
def Segment.regWords (g : Segment) : List Word :=
  words2 g.seq ++ words1 g.regs.length ++ g.regs.flatMap RegEntry.words

/-- The checks of SEGMENT.GET (R108): the seq and the part selector. -/
def segmentGetParse (payload : List Word) : Except Answer (Nat × Nat) :=
  match fields payload with
  | [] => .error (tooFew payload)
  | f :: rest =>
    if f.value = 0 ∨ 4294967295 < f.value then .error (naming f)
    else match rest with
      | [] => .ok (f.value, 0)
      | g :: rest' =>
        if 1 < g.value then .error (naming g)
        else match rest' with
          | [] => .ok (f.value, g.value)
          | h :: _ => .error (naming h)

/-- The answer of SEGMENT.GET (R108). -/
def segmentGetAnswer (payload : List Word) (s : State) : Answer :=
  match segmentGetParse payload with
  | .error a => a
  | .ok (seq, part) =>
    match segmentOf s.web.queue seq with
    | none => refuse .gone 0
    | some g => accept (if part = 0 then s.segmentWords g else g.regWords)

def takeSegmentGet : Taker := fun _ payload s => (s, segmentGetAnswer payload s)

/-- SEGMENT_GET (R108). -/
def execSegmentGet (port : PortId) (tag : Byte) (payload : List Word) (s : State) : Host.Outcome State Fault Refusal :=
  .next (requestFrame .segmentGet takeSegmentGet port tag payload s)

/-- The answer of WEB.WHERE (R109). -/
def webWhereAnswer (payload : List Word) (s : State) : Answer :=
  match oneSigned payload with
  | .error a => a
  | .ok at' =>
    let c := s.pos.p - at' - 1
    match containing s.web.queue c with
    | none => refuse .empty 0
    | some g =>
      accept (words2 g.seq ++ words1 g.roll ++ words1 (s.stage g).toCode ++ words2 (c - g.start) ++ words2 g.length
        ++ words3 s.pos.p)

def takeWebWhere : Taker := fun _ payload s => (s, webWhereAnswer payload s)

/-- WEB_WHERE (R109). -/
def execWebWhere (port : PortId) (tag : Byte) (payload : List Word) (s : State) : Host.Outcome State Fault Refusal :=
  .next (requestFrame .webWhere takeWebWhere port tag payload s)

end Sys2Proof.Machine
end

