-- ==== Sys2Proof/Machine/Phase.lean ====
section
/-! DEFINITION. The Phase Generator (spec/03): slew, channel advance and crossings, phase setpoints, STRETCH.SET and
GROUP.ALIGN. -/

namespace Sys2Proof.Machine

/-! ### The drive cycle advance (R35 to R42) -/

/-- The applied trim after one drive cycle's slew (R35). -/
def slewed (applied target slew : Int) : Int :=
  if target - applied ≤ slew ∧ applied - target ≤ slew then target
  else if applied < target then applied + slew else applied - slew

/-- Every present screen's applied trim slews (R35). -/
def State.slewAll (s : State) : State :=
  s.mapScreens fun _ x =>
    if x.present then { x with chan := { x.chan with applied := slewed x.chan.applied x.chan.target x.tuning.slew } }
    else x

/-- The repeat length a channel takes at a crossing (R37, R39, R40). -/
def State.lengthUnder (s : State) (k : ScreenId) : Int :=
  ((containing s.web.queue (s.design k)).map Segment.length).getD s.phase.lFab

/-- A forward crossing of a channel, r being the accumulator after the addition (R37). -/
def Channel.forward (r newLength : Int) (c : Channel) : Channel :=
  { c with r := r - c.lcur, n := c.n + 1, lcur := newLength, gear := gearOf newLength }

/-- A backward crossing of a channel (R39). -/
def Channel.backward (r newLength : Int) (c : Channel) : Channel :=
  { c with r := r + newLength, n := c.n - 1, lcur := newLength, gear := gearOf newLength }

/-- Whether a forward crossing of channel k hands new ground to the Web Map (R38). -/
def State.newGround (s : State) (k : ScreenId) : Bool :=
  k == 0 && s.web.lineState == .run && s.phase.highWater < (s.screen 0).chan.n + 1

/-- The key screen's crossing into new ground (R38). -/
def State.keyCrossing (r : Int) (s : State) : State :=
  let s1 := s.modChan 0 (Channel.forward r s.phase.lFab)
  ((s1.withPhase { s1.phase with highWater := (s1.screen 0).chan.n }).cross 0 true).create

/-- The advance of channel k by Δw, with its crossing if it makes one (R36 to R39, R43). -/
def State.advanceChannel (k : ScreenId) (dw : Int) (s : State) : State :=
  if (s.screen k).present = false then s
  else
    let r := (s.screen k).chan.r + dw
    if (s.screen k).chan.lcur ≤ r then
      if s.newGround k then s.keyCrossing r
      else (s.modChan k (Channel.forward r (s.lengthUnder k))).cross k false
    else if r < 0 then s.modChan k (Channel.backward r (s.lengthUnder k))
    else s.modChan k fun c => { c with r := r }

/-- Every present screen forms its phase setpoint (R42). -/
def State.formSetpoints (s : State) : State :=
  s.mapScreens fun _ x =>
    if x.present then { x with chan := { x.chan with setpoint := x.chan.r * x.chan.gear / 65536 } } else x

/-- The channel advance of a drive cycle: slews, then channel 0, then the others in index order (R35, R36). -/
def State.advanceChannels (deltaP : Int) (s : State) : State :=
  allScreens.foldl
    (fun u k => u.advanceChannel k (deltaP - (effTrim s.slewAll.screens k - effTrim s.screens k))) s.slewAll

/-! ### STRETCH_SET (R34) -/

/-- A stretch is staged and L_fab recomputed (R33, R34). -/
def State.stageStretch (v : Int) (s : State) : State :=
  s.withPhase { s.phase with stretch := v, lFab := stagedRepeat s.line.lScr v }

def takeStretchSet : Taker := fun _ payload s =>
  match oneSigned payload with
  | .error a => (s, a)
  | .ok v =>
    let staged := clamp (-2048) 2048 v
    (s.stageStretch staged,
      accept (words1 staged ++ flagWord (staged != v) ++ words2 (stagedRepeat s.line.lScr staged)))

/-- STRETCH_SET (R34). -/
def execStretchSet (port : PortId) (tag : Byte) (payload : List Word) (s : State) : Host.Outcome State Fault Refusal :=
  .next (requestFrame .stretchSet takeStretchSet port tag payload s)

/-! ### GROUP_ALIGN (R46 to R48) -/

/-- The checks of GROUP.ALIGN (R46) and, when they pass, the anchor. -/
def groupAlignParse (payload : List Word) (s : State) : Except Answer ScreenId :=
  match oneScreen payload with
  | .error a => .error a
  | .ok k =>
    if isAnchor (s.screen k) = false then .error (refuse .state 0)
    else if (membersOf s.screens k).any (fun j => s.engState j != .parked && s.engState j != .faulted) then
      .error (refuse .state 0)
    else .ok k

/-- The placement of screen k's channel on the fabric (R47). -/
def State.placed (s : State) (k : ScreenId) (c : Channel) : Channel :=
  match containing s.web.queue (s.design k) with
  | some g => { c with r := s.design k - g.start, lcur := g.length, gear := gearOf g.length }
  | none =>
    let key := (s.screen 0).chan
    { c with r := (s.design k - s.pos.p + key.r) % key.lcur, lcur := key.lcur, gear := gearOf key.lcur }

/-- Whether GROUP.ALIGN of anchor a places screen k: every present screen of the group but screen 0 (R47). -/
def State.places (s : State) (a k : ScreenId) : Bool := k != 0 && anchorOf s.screens k == some a

/-- The effect of an accepted GROUP.ALIGN: the placements, then the aligned flag (R47). -/
def State.alignGroup (a : ScreenId) (s : State) : State :=
  s.mapScreens fun k x =>
    let y := if s.places a k then { x with chan := s.placed k x.chan } else x
    if k = a then { y with aligned := true } else y

/-- The values of an accepted GROUP.ALIGN's reply, from the state before and after (R48). -/
def alignWords (a : ScreenId) (s t : State) : List Word :=
  let placed := allScreens.filter fun k => s.places a k
  words1 a.val ++ words1 placed.length ++ placed.flatMap fun k =>
    words1 k.val ++ words2 (s.seqUnder k) ++ words2 (t.screen k).chan.r ++ words2 (t.screen k).chan.lcur

def takeGroupAlign : Taker := fun _ payload s =>
  match groupAlignParse payload s with
  | .error a => (s, a)
  | .ok a => (s.alignGroup a, accept (alignWords a s (s.alignGroup a)))

/-- GROUP_ALIGN (R46 to R48). -/
def execGroupAlign (port : PortId) (tag : Byte) (payload : List Word) (s : State) : Host.Outcome State Fault Refusal :=
  .next (requestFrame .groupAlign takeGroupAlign port tag payload s)

end Sys2Proof.Machine
end

