-- ==== Sys2Proof/Machine/Screens.lean ====
section
/-! DEFINITION. The Screen Table (spec/02): SCREEN.PUT with its record checks and its effects, SCREEN.TUNE and
SCREEN.GET. -/

namespace Sys2Proof.Machine

/-- The next field of a record, within low … high: RANGE at the payload count when the payload ends before it, RANGE
naming it when it is out of range (R22, R28). -/
def takeField (payload : List Word) (low high : Nat) (fs : List Field) : Except Answer (Field × List Field) :=
  match fs with
  | [] => .error (tooFew payload)
  | f :: rest => if f.value < low || high < f.value then .error (naming f) else .ok (f, rest)

/-- The answer of SCREEN.PUT and SCREEN.TUNE: the records applied and the write index with every code (R21, R178). -/
def recordsAnswer (code : Status) (index applied : Nat) (write : ScreenId) : Answer :=
  { code := code, index := index, words := words1 applied ++ words1 write.val }

/-- The answer when the start index is missing or out of range, at word index 0 (R21, R28): nothing is applied, and the
manual states no write index (assumption log 11). DEDUCED: a SCREEN.TUNE whose payload holds no field but ignored widen
words is answered word index 0 as well, where R173 names the payload count for too few fields (assumption log 34,
unsafe). -/
def badStart (s : State) : State × Answer :=
  (s.takeFree.2, { code := .range, index := 0, words := words1 0 ++ [s.takeFree.1] })

/-- The start index of a request's fields, if it is present and within 0 … 23 (R21, R28). -/
def startIndex (fs : List Field) : Option (ScreenId × List Field) :=
  match fs with
  | [] => none
  | f :: rest => if h : f.value < 24 then some (⟨f.value, h⟩, rest) else none

/-! ### SCREEN_PUT: one record -/

/-- A structural record as received, with the word indices that refusals name. -/
structure StructRecord where
  headIndex : Nat
  kindIndex : Nat
  distIndex : Nat
  present : Bool
  kind : ScreenKind
  dist : Int
  limit : Int
  ext : Bool
  deriving DecidableEq, Repr

/-- The field checks of a record, in order, and the fields after it (R22). With head 0 the extension takes its default
(R16). DEDUCED: check 6 is made on a whole record, so that a record cut short is answered at the payload count also where
its distance fails check 6; R22 gives the two no order (assumption log 35, unsafe). -/
def parseRecord (payload : List Word) (s : State) (fs : List Field) : Except Answer (StructRecord × List Field) := do
  let (head, fs) ← takeField payload 0 1 fs
  let (present, fs) ← takeField payload 0 1 fs
  let (kind, fs) ← takeField payload 0 1 fs
  let (dist, fs) ← takeField payload 0 2000000 fs
  let (limit, fs) ← takeField payload 0 3000 fs
  let (ext, fs) ← if head.value = 1 then (takeField payload 0 1 fs).map fun e => (e.1.value == 1, e.2) else .ok (false, fs)
  if s.web.lineState ≠ .setup ∧ present.value = 1 ∧ s.line.xInsp ≤ dist.value then .error (naming dist)
  else
    .ok ({ headIndex := head.index, kindIndex := kind.index, distIndex := dist.index, present := present.value == 1,
           kind := if kind.value = 1 then .relative else .anchor, dist := dist.value, limit := limit.value, ext := ext }, fs)

/-- The structural fields and the extension of a screen replaced by a record's (R26, item 1). -/
def Screen.restructure (r : StructRecord) (x : Screen) : Screen :=
  { x with present := r.present, kind := r.kind, dist := r.dist, limit := r.limit, ext := r.ext }

/-- The screen table with a record for screen j applied (R24). -/
def tableAfter (t : Vector Screen 24) (j : ScreenId) (r : StructRecord) : Vector Screen 24 :=
  t.set j (t[j].restructure r)

/-- The key-screen law (R23): what refuses a record, if anything. -/
def keyScreenRefusal (t : Vector Screen 24) (j : ScreenId) (r : StructRecord) : Option Answer :=
  if j = 0 then
    if r.present then
      if r.kind = .relative then some (refuse .range r.kindIndex)
      else if r.dist ≠ 0 then some (refuse .range r.distIndex)
      else none
    else if allScreens.any fun k => k != 0 && t[k].present then some (refuse .state r.headIndex)
    else none
  else if r.present ∧ t[(0 : ScreenId)].present = false then some (refuse .state r.headIndex)
  else none

/-- The members of the group of screen j; empty when it belongs to none. -/
def groupMembers (t : Vector Screen 24) (j : ScreenId) : List ScreenId :=
  match anchorOf t j with
  | some a => membersOf t a
  | none => []

/-- The screens whose engagement states a record for screen j tests (R24): those of j's group before the record and of
its group after it. A record that removes or demotes an anchor tests the former alone: the receiving group is not tested
(assumption log 30). -/
def testedScreens (t : Vector Screen 24) (j : ScreenId) (r : StructRecord) : List ScreenId :=
  let after := tableAfter t j r
  if isAnchor t[j] && !isAnchor after[j] then groupMembers t j else groupMembers t j ++ groupMembers after j

/-- Whether some screen that the record tests is neither ABSENT nor PARKED nor FAULTED (R24). -/
def State.groupBusy (s : State) (j : ScreenId) (r : StructRecord) : Bool :=
  (testedScreens s.screens j r).any fun k => !(s.engState k).inactive

/-- The run checks (R25): a record for screen 0 outside SETUP, or one in RUN that changes the group of a planned
screen. -/
def State.runRefuses (s : State) (j : ScreenId) (r : StructRecord) : Bool :=
  (s.web.lineState != .setup && j == 0)
  || (s.web.lineState == .run && allScreens.any fun m =>
        inSet s.planned m && (anchorOf (tableAfter s.screens j r) m == none
          || anchorOf (tableAfter s.screens j r) m != anchorOf s.screens m))

/-- What refuses a record that has passed its field checks, if anything (R23 to R25). -/
def recordRefusal (s : State) (j : ScreenId) (r : StructRecord) : Option Answer :=
  match keyScreenRefusal s.screens j r with
  | some a => some a
  | none => if s.groupBusy j r || s.runRefuses j r then some (refuse .state r.headIndex) else none

/-- Whether a record for screen j touches the group named by a (R24). -/
def touches (before after : Vector Screen 24) (j a : ScreenId) : Bool :=
  anchorOf before j == some a || anchorOf after j == some a || membersOf before a != membersOf after a

/-- What an accepted record leaves of its own screen (R26, items 1 and 3 to 6). -/
def Screen.rewritten (j : ScreenId) (r : StructRecord) (x : Screen) : Screen :=
  let c := { x.chan with target := 0, applied := 0, lastCorrected := 0 }
  { x.restructure r with
    chan := if j = 0 then { c with r := 0, n := 0 } else c
    eng := { state := if r.present then .parked else .absent, cause := none, startSeq := 0, stopSeq := 0, window := false }
    miss := 0
    last := none }

/-- The ring state after a structural write (R77). -/
def ringAfterWrite (before : RingState) (t : Vector Screen 24) : RingState :=
  if allScreens.any fun k => t[k].present then (if before = .down then .up else before) else .down

/-- An accepted record for screen j (R26, with R20, R77, R84 and R190). -/
def State.putRecord (j : ScreenId) (r : StructRecord) (s : State) : State :=
  let after := tableAfter s.screens j r
  let s1 := s.mapScreens fun k x =>
    let y := if k = j then x.rewritten j r else x
    { y with aligned := if touches s.screens after j k || !(isAnchor after[k]) then false else y.aligned }
  let s2 := s1.withRing { s1.ring with state := ringAfterWrite s.ring.state after }
  let s3 := if j = 0 then s2.withPhase { s2.phase with highWater := 0 } else s2
  s3.evalHold.evalLines

/-! ### SCREEN_PUT: the request -/

/-- The records in turn, on at most n of them: j is the write index and m the records applied so far (R21). -/
def putRecords (payload : List Word) : Nat → ScreenId → Nat → List Field → State → State × Answer
  | 0, j, m, _, s => (s, recordsAnswer .ok 0 m j)
  | n + 1, j, m, fs, s =>
    if fs = [] then (s, recordsAnswer .ok 0 m j)
    else match parseRecord payload s fs with
      | .error a => (s, recordsAnswer a.code a.index m j)
      | .ok (r, rest) =>
        match recordRefusal s j r with
        | some a => (s, recordsAnswer a.code a.index m j)
        | none => putRecords payload n (j + 1) (m + 1) rest (s.putRecord j r)

def takeScreenPut : Taker := fun _ payload s =>
  match startIndex (fields payload) with
  | none => badStart s
  | some (j, []) => (s, recordsAnswer .range payload.length 0 j)
  | some (j, f :: rest) => putRecords payload (rest.length + 1) j 0 (f :: rest) s

/-- SCREEN_PUT (R21 to R26). -/
def execScreenPut (port : PortId) (tag : Byte) (payload : List Word) (s : State) : Host.Outcome State Fault Refusal :=
  .next (requestFrame .screenPut takeScreenPut port tag payload s)

/-! ### SCREEN_TUNE (R28) -/

/-- The field checks of a tuning record, in order, and the fields after it. -/
def parseTuning (payload : List Word) (fs : List Field) : Except Answer (Tuning × List Field) := do
  let (lead, fs) ← takeField payload 2000 50000 fs
  let (slew, fs) ← takeField payload 1 64 fs
  let (gain, fs) ← takeField payload 0 256 fs
  let (deadband, fs) ← takeField payload 0 255 fs
  let (step, fs) ← takeField payload 1 1000 fs
  .ok ({ lead := lead.value, slew := slew.value, gain := gain.value, deadband := deadband.value, stepLimit := step.value }, fs)

/-- The tuning records in turn, on at most n of them. -/
def tuneRecords (payload : List Word) : Nat → ScreenId → Nat → List Field → State → State × Answer
  | 0, j, m, _, s => (s, recordsAnswer .ok 0 m j)
  | n + 1, j, m, fs, s =>
    if fs = [] then (s, recordsAnswer .ok 0 m j)
    else match parseTuning payload fs with
      | .error a => (s, recordsAnswer a.code a.index m j)
      | .ok (t, rest) => tuneRecords payload n (j + 1) (m + 1) rest (s.modScreen j fun x => { x with tuning := t })

def takeScreenTune : Taker := fun _ payload s =>
  match startIndex (fields payload) with
  | none => badStart s
  | some (j, []) => (s, recordsAnswer .range payload.length 0 j)
  | some (j, f :: rest) => tuneRecords payload (rest.length + 1) j 0 (f :: rest) s

/-- SCREEN_TUNE (R28). -/
def execScreenTune (port : PortId) (tag : Byte) (payload : List Word) (s : State) : Host.Outcome State Fault Refusal :=
  .next (requestFrame .screenTune takeScreenTune port tag payload s)

/-! ### SCREEN_GET (R30) -/

/-- The structural part, the extension and the tuning part as reply words. -/
def Screen.tableWords (x : Screen) : List Word :=
  flagWord x.present ++ words1 x.kind.toCode ++ words2 x.dist ++ words1 x.limit ++ flagWord x.ext
    ++ words1 x.tuning.lead ++ words1 x.tuning.slew ++ words1 x.tuning.gain ++ words1 x.tuning.deadband
    ++ words1 x.tuning.stepLimit

/-- The group's anchor, type and aligned flag as reply words. A screen of no group has anchor 0xFFFF (R174); the manual
states no type and no flag for it, so they are free values (assumption log 10). -/
def State.groupWords (s : State) (k : ScreenId) : State × List Word :=
  match anchorOf s.screens k with
  | some a => (s, words1 a.val ++ flagWord (s.screen a).ext ++ flagWord (s.screen a).aligned)
  | none => (s.takeFree.2.takeFree.2, [0xFFFF, s.takeFree.1, s.takeFree.2.takeFree.1])

/-- The engagement values as reply words. -/
def State.engWords (s : State) (k : ScreenId) : List Word :=
  let e := (s.screen k).eng
  words1 e.state.toCode ++ words1 (causeCode e.cause) ++ flagWord (inSet s.planned k) ++ words2 e.startSeq
    ++ words2 e.stopSeq ++ flagWord e.window

/-- The channel values as reply words; an ABSENT screen's setpoint is reported as 0 (R30, R42). -/
def State.chanWords (s : State) (k : ScreenId) : List Word :=
  let c := (s.screen k).chan
  words1 c.target ++ words1 c.applied ++ words1 (effTrim s.screens k) ++ words2 c.r ++ words2 c.lcur ++ words2 c.gear
    ++ words2 c.n ++ words1 (if (s.screen k).present then c.setpoint else 0) ++ words2 c.lastCorrected

/-- The ring values as reply words; a last reply of none is none with phase 0 (R86). -/
def Screen.ringWords (x : Screen) : List Word :=
  match x.last with
  | some r => words1 x.miss ++ words1 r.state.toCode ++ [r.phase]
  | none => words1 x.miss ++ [0, 0]

def takeScreenGet : Taker := fun _ payload s =>
  match oneScreen payload with
  | .error a => (s, a)
  | .ok k =>
    ((s.groupWords k).1, accept (words1 k.val ++ (s.screen k).tableWords ++ (s.groupWords k).2 ++ s.engWords k
      ++ s.chanWords k ++ (s.screen k).ringWords))

/-- SCREEN_GET (R30). -/
def execScreenGet (port : PortId) (tag : Byte) (payload : List Word) (s : State) : Host.Outcome State Fault Refusal :=
  .next (requestFrame .screenGet takeScreenGet port tag payload s)

end Sys2Proof.Machine
end

