-- ==== Sys2Proof/Machine/Register.lean ====
section
/-! DEFINITION. Register Control (spec/07): REG.REPORT, the register lists and the trim corrections. -/

namespace Sys2Proof.Machine

/-- A register report that has passed its payload checks (R113). -/
structure RegReport where
  seq : Nat
  screen : ScreenId
  screenIndex : Nat
  error : Int
  deriving DecidableEq, Repr

/-- The payload checks of REG.REPORT (R113). -/
def regReportParse (payload : List Word) : Except Answer RegReport :=
  match fields payload with
  | [f, g, h] =>
    if f.value = 0 ∨ 4294967295 < f.value then .error (naming f)
    else if hk : g.value < 24 then
      .ok { seq := f.value, screen := ⟨g.value, hk⟩, screenIndex := g.index, error := h.signed }
    else .error (naming g)
  | _ :: _ :: _ :: x :: _ => .error (naming x)
  | _ => .error (tooFew payload)

/-- The acceptance checks, in order (R114): the segment reported on. DEDUCED: a queued segment short of the camera is
answered EARLY at all times, by the table of R114, where the last sentence of R128 says GONE until the first segment of the
first run has reached the camera (assumption log 33, unsafe). -/
def regReportAccept (r : RegReport) (s : State) : Except Answer Segment :=
  match segmentOf s.web.queue r.seq with
  | none => .error (refuse .gone 0)
  | some g =>
    if g.camera = false then .error (refuse .early 0)
    else if r.screen = 0 then .error (refuse .reference 0)
    else if inSet g.printed r.screen = false then .error (refuse .unprinted 0)
    else if (s.screen r.screen).present = false then .error (refuse .range r.screenIndex)
    else .ok g

/-- An entry written into a register list: it replaces the screen's entry, else it is inserted in screen order (R115). -/
def storeEntry (e : RegEntry) : List RegEntry → List RegEntry
  | [] => [e]
  | x :: xs =>
    if x.screen = e.screen then e :: xs
    else if e.screen < x.screen then e :: x :: xs
    else x :: storeEntry e xs

/-- The entry a report writes, with its out-of-tolerance flag (R115, R116). -/
def entryFor (tolerance : Int) (k : ScreenId) (e : Int) : RegEntry :=
  { screen := k, error := e, outOfTol := tolerance < e.natAbs }

/-- The step-clamped correction of an error (R119). -/
def correction (t : Tuning) (e : Int) : Int := clamp (-t.stepLimit) t.stepLimit ((e * t.gain + 128) / 256)

/-- What a report does to the trim (R117, R118). -/
inductive RegOutcome where
  | stored | deadband
  | corrected (c : Int)
  deriving DecidableEq, Repr

/-- The outcome of an accepted report on a screen (R117 to R119). -/
def regOutcome (seq : Nat) (e : Int) (x : Screen) : RegOutcome :=
  if seq ≤ x.chan.lastCorrected then .stored
  else if (e.natAbs : Int) ≤ x.tuning.deadband then .deadband
  else .corrected (correction x.tuning e)

/-- The trim target after a correction (R120). -/
def newTarget (x : Screen) (c : Int) : Int := clamp (-x.limit) x.limit (x.chan.target - c)

/-- Whether the limit clamp of R120 bites. -/
def limitBites (x : Screen) (o : RegOutcome) : Bool :=
  match o with
  | .corrected c => newTarget x c != x.chan.target - c
  | .stored | .deadband => false

/-- The channel after a report (R117, R118, R120). -/
def reported (seq : Nat) (o : RegOutcome) (x : Screen) : Channel :=
  match o with
  | .stored => x.chan
  | .deadband => { x.chan with lastCorrected := seq }
  | .corrected c => { x.chan with lastCorrected := seq, target := newTarget x c }

/-- The effect of an accepted report with its stored error (R115 to R120). -/
def State.report (seq : Nat) (k : ScreenId) (e : Int) (s : State) : State :=
  let o := regOutcome seq e (s.screen k)
  let entry := entryFor s.line.tolerance k e
  let s1 := s.withQueue (s.web.queue.map fun g => if g.seq = seq then { g with regs := storeEntry entry g.regs } else g)
  let s2 := s1.modChan k fun _ => reported seq o (s.screen k)
  (s2.latchIf (limitBites (s.screen k) o) .trimAtLimit).evalLines

/-- The code of an outcome and its correction (R123, R183). -/
def RegOutcome.words : RegOutcome → List Word
  | .stored => words1 0 ++ words1 0
  | .deadband => words1 1 ++ words1 0
  | .corrected c => words1 2 ++ words1 c

/-- The reply to an accepted report (R123). -/
def reportWords (r : RegReport) (g : Segment) (e : Int) (s : State) : List Word :=
  let o := regOutcome r.seq e (s.screen r.screen)
  let c := reported r.seq o (s.screen r.screen)
  words2 r.seq ++ words1 r.screen.val ++ words1 e ++ flagWord (e != r.error)
    ++ flagWord (entryFor s.line.tolerance r.screen e).outOfTol
    ++ flagWord (g.regs.any fun x => x.screen == r.screen) ++ o.words ++ flagWord (limitBites (s.screen r.screen) o) ++ words1 c.target ++ words2 c.lastCorrected

def takeRegReport : Taker := fun _ payload s =>
  match regReportParse payload with
  | .error a => (s, a)
  | .ok r =>
    match regReportAccept r s with
    | .error a => (s, a)
    | .ok g =>
      let e := clamp (-32000) 32000 r.error
      (s.report r.seq r.screen e, accept (reportWords r g e s))

/-- REG_REPORT (R113 to R123). -/
def execRegReport (port : PortId) (tag : Byte) (payload : List Word) (s : State) : Host.Outcome State Fault Refusal :=
  .next (requestFrame .regReport takeRegReport port tag payload s)

end Sys2Proof.Machine
end

