-- ==== Sys2Proof/Machine/Cure.lean ====
section
/-! DEFINITION. The Cure Monitor (spec/08): the zone table, zone samples and ageing, the cure profile, the dose tick and
ZONE.CONTENTS. -/

namespace Sys2Proof.Machine

/-! ### ZONE_PUT (R130, R131) -/

/-- The first of the bounds B_z, from the one after `low` on, that is above 12,000,000 or less than 220,000 above the
bound before it (R130, check 4). -/
def badBound (low : Nat) : List Field → Option Field
  | [] => none
  | f :: rest => if 12000000 < f.value || f.value < low + 220000 then some f else badBound f.value rest

/-- What is wrong with B_0, the bounds after it and the weights, if anything (R130, checks 4 and 5). -/
def zoneFieldRefusal (b0 : Field) (bounds weights : List Field) : Option Answer :=
  if 12000000 < b0.value then some (naming b0)
  else match badBound b0.value bounds with
    | some f => some (naming f)
    | none => (weights.find? fun f => 255 < f.value).map naming

/-- A zone that no sample has reached: temperature 0, age 255, DEAD (R131). -/
def Zone.new (zEnd weight : Nat) : Zone := { zEnd := zEnd, weight := weight, temp := 0, age := 255, freshness := .dead }

/-- The checks of ZONE.PUT (R130) and, when they pass, the table received. -/
def zonePutParse (payload : List Word) (s : State) : Except Answer ZoneTable :=
  if s.web.lineState ≠ .setup then .error (refuse .state 0)
  else match fields payload with
    | [] => .error (tooFew payload)
    | count :: fs =>
      let n := count.value
      if n < 1 || 8 < n then .error (naming count)
      else if fs.length < 2 * n + 1 then .error (tooFew payload)
      else match fs[2 * n + 1]?, fs with
        | some f, _ => .error (naming f)
        | none, [] => .error (tooFew payload)
        | none, b0 :: rest =>
          match zoneFieldRefusal b0 (rest.take n) (rest.drop n) with
          | some a => .error a
          | none => .ok
              { b0 := b0.value
                zones := ((rest.take n).zip (rest.drop n)).map fun bw => Zone.new bw.1.value bw.2.value }

def takeZonePut : Taker := fun _ payload s =>
  match zonePutParse payload s with
  | .error a => (s, a)
  | .ok t => (s.withOven t, accept (words1 t.zones.length ++ words2 t.b0 ++ words2 (t.exit.getD 0)))

/-- ZONE_PUT (R130, R131). -/
def execZonePut (port : PortId) (tag : Byte) (payload : List Word) (s : State) : Host.Outcome State Fault Refusal :=
  .next (requestFrame .zonePut takeZonePut port tag payload s)

/-! ### ZONE_SAMPLE (R133, R134) -/

/-- What one value of a sample does to its zone (R134). -/
def Zone.sample (v : Nat) (z : Zone) : Zone :=
  if v = 32767 then z
  else if v = 32766 then { z with freshness := .dead, age := 255 }
  else { z with temp := min 4000 v, age := 0, freshness := .fresh }

/-- Whether a value takes its zone newly into DEAD. -/
def newlyDead (v : Nat) (z : Zone) : Bool := v == 32766 && z.freshness != .dead

/-- Whether a value is clamped. -/
def sampleClamped (v : Nat) : Bool := 4000 < v && v < 32766

/-- The checks of ZONE.SAMPLE (R133) and, when they pass, the values: the field words alone. -/
def zoneSampleParse (payload : List Word) (s : State) : Except Answer (List Nat) :=
  if s.oven.zones = [] then .error (refuse .state 0)
  else if (fields payload).length < s.oven.zones.length then .error (tooFew payload)
  else match (fields payload)[s.oven.zones.length]? with
    | some f => .error (refuse .range f.ownIndex)
    | none => .ok ((fields payload).map Field.own)

/-- The zones after the values of a sample, in zone order. -/
def sampleZones (vs : List Nat) (zones : List Zone) : List Zone := (vs.zip zones).map fun vz => vz.2.sample vz.1

/-- The effect of an accepted ZONE.SAMPLE (R134). -/
def State.sampleAll (vs : List Nat) (s : State) : State :=
  ((s.withOven { s.oven with zones := sampleZones vs s.oven.zones }).latchIf
    ((vs.zip s.oven.zones).any fun vz => newlyDead vz.1 vz.2) .zoneDead).evalLines

/-- The reply of ZONE.SAMPLE (R134). -/
def sampleWords (vs : List Nat) (zones : List Zone) : List Word :=
  words1 zones.length ++ (vs.zip zones).flatMap fun vz =>
    words1 (vz.2.sample vz.1).freshness.toCode ++ words1 (vz.2.sample vz.1).temp ++ flagWord (sampleClamped vz.1)

def takeZoneSample : Taker := fun _ payload s =>
  match zoneSampleParse payload s with
  | .error a => (s, a)
  | .ok vs => (s.sampleAll vs, accept (sampleWords vs s.oven.zones))

/-- ZONE_SAMPLE (R133, R134). -/
def execZoneSample (port : PortId) (tag : Byte) (payload : List Word) (s : State) : Host.Outcome State Fault Refusal :=
  .next (requestFrame .zoneSample takeZoneSample port tag payload s)

/-! ### CURE_PUT (R135, R136) -/

/-- The ranges of the cure profile (R135). -/
def cureRanges : List (Nat × Nat) := [(0, 3000), (0, 4000), (0, 4294967295), (0, 4294967295)]

/-- The checks of CURE.PUT (R135) and, when they pass, the profile. -/
def curePutParse (payload : List Word) : Except Answer CureProfile :=
  match exactly 4 payload with
  | .error a => .error a
  | .ok fs =>
    match firstOutside cureRanges fs with
    | some a => .error a
    | none =>
      if valueAt fs 3 < valueAt fs 2 then .error (refuse .range ((fs[2]?.map Field.index).getD 0))
      else .ok { tBase := valueAt fs 0, tScorch := valueAt fs 1, doseMin := valueAt fs 2, doseMax := valueAt fs 3 }

/-- The four settings as reply words (R136). -/
def CureProfile.words (c : CureProfile) : List Word :=
  words1 c.tBase ++ words1 c.tScorch ++ words2 c.doseMin ++ words2 c.doseMax

def takeCurePut : Taker := fun _ payload s =>
  match curePutParse payload with
  | .error a => (s, a)
  | .ok c => (s.withCure c, accept c.words)

/-- CURE_PUT (R135, R136). -/
def execCurePut (port : PortId) (tag : Byte) (payload : List Word) (s : State) : Host.Outcome State Fault Refusal :=
  .next (requestFrame .curePut takeCurePut port tag payload s)

/-! ### DOSE_TICK (R137 to R142) -/

/-- A zone's freshness at an age, from its freshness before (R138). -/
def agedFreshness (age : Nat) (f : Freshness) : Freshness :=
  match f with
  | .dead => .dead
  | .stale => if 30 ≤ age then .dead else .stale
  | .fresh => if 30 ≤ age then .dead else if 5 ≤ age then .stale else .fresh

/-- A zone one tick older (R138). -/
def Zone.older (z : Zone) : Zone :=
  let age := min 255 (z.age + 1)
  { z with age := age, freshness := agedFreshness age z.freshness }

/-- Whether a FRESH zone's age now makes it STALE (R138, first item). -/
def Zone.turnsStale (z : Zone) : Bool := z.freshness == .fresh && 5 ≤ z.older.age

/-- Whether a zone becomes DEAD at this tick. -/
def Zone.turnsDead (z : Zone) : Bool := z.freshness != .dead && z.older.freshness == .dead

/-- Step 1 of a dose tick: the zones age (R138). -/
def State.ageZones (s : State) : State :=
  ((s.withOven { s.oven with zones := s.oven.zones.map Zone.older }).latchIf
    (s.oven.zones.any Zone.turnsStale) .zoneStale).latchIf (s.oven.zones.any Zone.turnsDead) .zoneDead

/-- The zones a segment overlaps, each with its overlap (R140). -/
def overlaps (p : Int) (g : Segment) (spans : List (Int × Zone)) : List (Int × Zone) :=
  (spans.map fun lz => (overlap p g lz.1 lz.2.zEnd, lz.2)).filter fun oz => 0 < oz.1

/-- The increment of a segment at a tick (R141). -/
def increment (tBase : Nat) (length : Int) (ovs : List (Int × Zone)) : Nat :=
  (((ovs.map fun oz => oz.1 * (oz.2.excess tBase : Int)).foldl (· + ·) 0) / length).toNat

/-- The peak of a segment after a tick: T_z of every overlapped zone that is FRESH or STALE (R142). -/
def peakAfter (peak : Nat) (ovs : List (Int × Zone)) : Nat :=
  ovs.foldl (fun m oz => if oz.2.freshness = .dead then m else max m oz.2.temp) peak

/-- A queued segment after step 2 of a dose tick (R141, R142); one that overlaps no zone is untouched. -/
def Segment.dosed (p : Int) (tBase : Nat) (spans : List (Int × Zone)) (g : Segment) : Segment :=
  let ovs := overlaps p g spans
  if ovs = [] then g
  else
    { g with dose := min 4294967295 (g.dose + increment tBase g.length ovs)
             peak := peakAfter g.peak ovs
             cureUnknown := g.cureUnknown || ovs.any fun oz => oz.2.freshness == .dead }

/-- Step 2 of a dose tick (R139 to R142). -/
def State.addDoses (s : State) : State :=
  s.withQueue (s.web.queue.map fun g => g.dosed s.pos.p s.cure.tBase s.oven.spans)

/-- DOSE_TICK (R137). While RESETN is asserted no dose tick occurs. -/
def execDoseTick (s : State) : Host.Outcome State Fault Refusal :=
  .next (if s.inReset then s else s.ageZones.addDoses.evalLines)

/-! ### ZONE_CONTENTS (R146) -/

/-- An overlapping segment in the snapshot. -/
def contentWords (og : Int × Segment) : List Word :=
  words2 og.2.seq ++ words2 og.1 ++ words2 og.2.dose ++ words1 og.2.peak

/-- The snapshot of the zone of an index, its lower bound being `low`. -/
def State.zoneWords (s : State) (index : Nat) (low : Int) (z : Zone) : List Word :=
  let inside := (s.web.queue.map fun g => (overlap s.pos.p g low z.zEnd, g)).filter fun og => 0 < og.1
  words1 index ++ words2 low ++ words2 z.zEnd ++ words1 z.weight ++ words1 z.temp ++ words1 z.age
    ++ words1 z.freshness.toCode ++ words1 (z.excess s.cure.tBase) ++ words3 s.pos.p ++ words1 inside.length
    ++ (inside.take 16).flatMap contentWords

/-- The answer of ZONE.CONTENTS (R146). -/
def zoneContentsAnswer (payload : List Word) (s : State) : Answer :=
  match oneField 1 s.oven.zones.length payload with
  | .error a => a
  | .ok index =>
    match s.oven.spans[index - 1]? with
    | none => tooFew payload
    | some lz => accept (s.zoneWords index lz.1 lz.2)

def takeZoneContents : Taker := fun _ payload s => (s, zoneContentsAnswer payload s)

/-- ZONE_CONTENTS (R146). -/
def execZoneContents (port : PortId) (tag : Byte) (payload : List Word) (s : State) : Host.Outcome State Fault Refusal :=
  .next (requestFrame .zoneContents takeZoneContents port tag payload s)

end Sys2Proof.Machine
end

