-- ==== Sys2Proof/Machine/Attention.lean ====
section
/-! DEFINITION. The requests of the Attention Unit (spec/11): ATTN.ENABLE and ATTN.TAKE. The sets and lines themselves
are in Machine/Flags.lean. -/

namespace Sys2Proof.Machine

/-! ### ATTN_ENABLE (R191) -/

/-- The checks of ATTN.ENABLE, in its order: a second field is named before a value with a bit of no kind (R191). -/
def attnEnableParse (payload : List Word) : Except Answer KindSet :=
  match exactly 1 payload with
  | .error a => .error a
  | .ok fs =>
    match firstOutside [(0, 131071)] fs with
    | some a => .error a
    | none => .ok (BitVec.ofNat 17 (valueAt fs 0))

/-- The enabled set of a port becomes the requested kinds that its role may see (R191). -/
def State.enable (n : PortId) (requested : KindSet) (s : State) : State :=
  (s.modPort n fun q => { q with enabled := requested &&& visible q.role }).evalLines

def takeAttnEnable : Taker := fun n payload s =>
  match attnEnableParse payload with
  | .error a => (s, a)
  | .ok requested =>
    let t := s.enable n requested
    (t, accept (kindSetWords (t.port n).enabled ++ kindSetWords (t.pendingSet n)))

/-- ATTN_ENABLE (R191). -/
def execAttnEnable (port : PortId) (tag : Byte) (payload : List Word) (s : State) : Host.Outcome State Fault Refusal :=
  .next (requestFrame .attnEnable takeAttnEnable port tag payload s)

/-! ### ATTN_TAKE (R192) -/

/-- Every latched kind a take returned leaves the port's latched part (R192). -/
def State.takePending (n : PortId) (s : State) : State :=
  (s.modPort n fun q => { q with latched := q.latched &&& ~~~(s.pendingSet n) }).evalLines

def takeAttnTake : Taker := fun n payload s =>
  match noFields payload with
  | some a => (s, a)
  | none => (s.takePending n, accept (kindSetWords (s.pendingSet n) ++ kindSetWords (s.port n).enabled))

/-- ATTN_TAKE (R192). -/
def execAttnTake (port : PortId) (tag : Byte) (payload : List Word) (s : State) : Host.Outcome State Fault Refusal :=
  .next (requestFrame .attnTake takeAttnTake port tag payload s)

end Sys2Proof.Machine
end

