-- ==== Sys2Proof/Machine/Ports.lean ====
section
/-! DEFINITION. The Port Interface (spec/10): STATUS.GET, the owner of each request kind, FETCH and the KIND refusal,
and the receive states, word by word. -/

namespace Sys2Proof.Machine

/-! ### STATUS_GET (R179) -/

/-- The slewing, limit and lag sets (R50). -/
def State.slewingSet (s : State) : ScreenSet :=
  screensWhere fun k => (s.screen k).present && (s.screen k).chan.applied != (s.screen k).chan.target

def State.limitSet (s : State) : ScreenSet :=
  screensWhere fun k =>
    (s.screen k).present && 0 < (s.screen k).limit
      && ((s.screen k).chan.target == (s.screen k).limit || (s.screen k).chan.target == -(s.screen k).limit)

def State.lagSet (s : State) : ScreenSet := screensWhere fun k => (s.screen k).present && (s.screen k).chan.target < 0

/-- The present anchors whose group is aligned (R179, order 14). -/
def State.alignedSet (s : State) : ScreenSet := screensWhere fun k => isAnchor (s.screen k) && (s.screen k).aligned

/-- The 50 words of STATUS.GET, in its order (R179). -/
def State.statusWords (s : State) (n : PortId) : List Word :=
  words1 s.web.lineState.toCode ++ words1 s.ring.state.toCode ++ words1 s.pos.motion.toCode ++ flagWord s.ring.hold
    ++ flagWord s.web.exhausted ++ words1 (s.port n).role.toCode ++ words3 s.pos.p ++ words1 s.phase.stretch
    ++ words2 s.web.nextSeq ++ words1 s.web.queue.length ++ words1 s.reports.length ++ words1 s.ring.faults.length
    ++ words1 s.web.rolls.length ++ setWords s.alignedSet ++ setWords s.planned ++ setWords s.slewingSet
    ++ setWords s.limitSet ++ setWords s.lagSet ++ allScreens.flatMap fun k => words1 (s.engState k).toCode

def takeStatusGet : Taker := fun n payload s =>
  match noFields payload with
  | some a => (s, a)
  | none => (s, accept (s.statusWords n))

/-- STATUS_GET (R179). -/
def execStatusGet (port : PortId) (tag : Byte) (payload : List Word) (s : State) : Host.Outcome State Fault Refusal :=
  .next (requestFrame .statusGet takeStatusGet port tag payload s)

/-! ### Good frames (R165 to R168) -/

/-- The block that takes each request kind (R177). -/
def taker : Kind → Taker
  | .linePut => takeLinePut
  | .screenPut => takeScreenPut
  | .screenTune => takeScreenTune
  | .screenGet => takeScreenGet
  | .stretchSet => takeStretchSet
  | .groupAlign => takeGroupAlign
  | .engage => takeEngage
  | .lift => takeLift
  | .faultTake => takeFaultTake
  | .screenClear => takeScreenClear
  | .runBegin => takeRunBegin
  | .runDrain => takeRunDrain
  | .runAbort => takeRunAbort
  | .segmentGet => takeSegmentGet
  | .webWhere => takeWebWhere
  | .regReport => takeRegReport
  | .zonePut => takeZonePut
  | .curePut => takeCurePut
  | .zoneSample => takeZoneSample
  | .zoneContents => takeZoneContents
  | .reportTake => takeReportTake
  | .rollGet => takeRollGet
  | .statusGet => takeStatusGet
  | .attnEnable => takeAttnEnable
  | .attnTake => takeAttnTake

/-- A good frame that port n has received: FETCH sets the fetch pointer to the first word of the held reply, an unknown
kind is answered KIND, and a request is taken (R167, R168). -/
def frameGood (n : PortId) (kind tag : Byte) (payload : List Word) (s : State) : State :=
  if kind = fetchCode then s.modPort n fun q => { q with fetch := some 0 }
  else match Kind.ofCode kind with
    | none => s.holdReply n kind tag (refuse .kind 0)
    | some k => answerRequest k (taker k) n tag payload s

/-- A good frame of any kind completes on port n, as one command. -/
def wholeFrame (n : PortId) (kind tag : Byte) (payload : List Word) (s : State) : State :=
  if s.inReset then s
  else if payload.length ≤ 64 then frameGood n kind tag payload (s.receiveFrame n kind tag payload)
  else s.receiveFrame n kind tag payload

/-- FETCH (R167): the held reply is not replaced. -/
def execFetch (port : PortId) (tag : Byte) (payload : List Word) (s : State) : Host.Outcome State Fault Refusal :=
  .next (wholeFrame port fetchCode tag payload s)

/-- KIND_REFUSED (R168): a good frame whose kind is no kind code is answered KIND. -/
def execKindRefused (port : PortId) (kind tag : Byte) (payload : List Word) (s : State) :
    Host.Outcome State Fault Refusal :=
  .next (wholeFrame port kind tag payload s)

/-! ### The receive states, word by word (R164, R165, R167) -/

/-- The word that PnDO carries in state DONE, and the fetch pointer after it: the held reply's frame word by word from
the fetch pointer, 0x0000 after its check word and where no FETCH was received (R167). -/
def Port.shiftOut (q : Port) : Port :=
  match q.fetch with
  | none => { q with dataOut := 0 }
  | some i =>
    match q.held.frame[i]? with
    | some w => { q with dataOut := w, fetch := some (i + 1) }
    | none => { q with dataOut := 0 }

/-- A port's registers after a word is completed in a state other than CHECK (R164). -/
def Port.word (w : Word) (q : Port) : Port :=
  match q.rx with
  | .idle | .check => q
  | .header =>
    { q with kind := some (w.extractLsb' 8 8), tag := some (w.extractLsb' 0 8), check := crc16Word q.check w,
             rx := .count, dataOut := 0 }
  | .count =>
    { q with count := w, check := crc16Word q.check w, dataOut := 0
             rx := if w = 0 then .check else if w.toNat ≤ 64 then .payload else .discard }
  | .payload =>
    { q with payload := q.payload ++ [w], check := crc16Word q.check w, dataOut := 0
             rx := if q.count.toNat ≤ q.payload.length + 1 then .check else .payload }
  | .done => q.shiftOut
  | .discard => { q with dataOut := 0 }

/-- A word is completed on PnDI of port n. In CHECK the frame ends: it is good when the word equals the running check,
and otherwise finishes with FRAME (R165). -/
def State.completeWord (n : PortId) (w : Word) (s : State) : State :=
  if s.inReset then s
  else if (s.port n).rx = .check then
    if w = (s.port n).check then
      frameGood n ((s.port n).kind.getD 0) ((s.port n).tag.getD 0) (s.port n).payload
        (s.modPort n fun q => { q with rx := .done, dataOut := 0 })
    else s.modPort n fun q => { q with dataOut := 0 }.finishFrame .done
  else s.modPort n (Port.word w)

/-- SELECT_ASSERTED (R164): the assertion of PnSEL in IDLE clears the receive registers and moves to HEADER. With PnSEL
already asserted there is no assertion; while RESETN is asserted only the level of the pin changes (R180). -/
def execSelectAsserted (port : PortId) (s : State) : Host.Outcome State Fault Refusal :=
  .next <| s.modPort port fun q =>
    if s.inReset ∨ q.rx ≠ .idle then { q with sel := true }
    else if q.sel then q
    else
      { q with sel := true, rx := .header, kind := none, tag := none, count := 0, payload := [], check := 0xFFFF,
               fetch := none }

/-- WORD_COMPLETED (R164, R165, R167). -/
def execWordCompleted (port : PortId) (word : Word) (s : State) : Host.Outcome State Fault Refusal :=
  .next (s.completeWord port word)

/-- SELECT_RELEASED (R164, R180). -/
def execSelectReleased (port : PortId) (bits : Fin 16) (partialWord : Word) (s : State) :
    Host.Outcome State Fault Refusal :=
  .next (s.releaseSelect port bits partialWord)

/-- FRAME_BROKEN (R164 to R166): PnSEL is released in mid-frame, or a check word differs. -/
def execFrameBroken (port : PortId) (how : FrameBreak) (s : State) : Host.Outcome State Fault Refusal :=
  match how with
  | .released bits partialWord => .next (s.releaseSelect port bits partialWord)
  | .checkWord word => .next (s.completeWord port word)

end Sys2Proof.Machine
end

