-- ==== Sys2Proof/Machine/DriveCycle.lean ====
section
/-! DEFINITION. The drive cycle (R3): the events of the Position Counter, the Phase Generator, Engagement Control, the
Web Map and the Ring Controller that are made as one. -/

namespace Sys2Proof.Machine

/-- A drive cycle: the Position Counter advance, the channel advance with its crossings, the window tests, the phase
setpoints, the Web Map tests and the setpoint frame; then the hold output and the attention lines stand as their terms
give them. -/
def State.driveCycle (s : State) : State :=
  (((s.advancePosition.advanceChannels s.pos.deltaP).windowTests.formSetpoints).webTests.sendFrame).evalHold.evalLines

/-- DRIVE_CYCLE (R3). While RESETN is asserted no drive cycle occurs. -/
def execDriveCycle (s : State) : Host.Outcome State Fault Refusal := .next (if s.inReset then s else s.driveCycle)

end Sys2Proof.Machine
end

