-- ==== Sys2Proof/Machine/ResetLine.lean ====
section
/-! DEFINITION. RESETN (R180, R9): what its assertion stops and what its release leaves. -/

namespace Sys2Proof.Machine

/-- A port while RESETN is asserted: a select period in progress is abandoned, PnDO carries 0x0000 and PnATN is released
(R180, R195). -/
def Port.abandon (q : Port) : Port :=
  { q with rx := .idle, kind := none, tag := none, count := 0, payload := [], check := 0xFFFF, fetch := none,
           dataOut := 0, line := false }

/-- RESET_ASSERT (R180, R87, R195): events stop, no frame is in flight, every port is abandoned. The other registers
keep their values until the release (assumption log 6). -/
def execResetAssert (s : State) : Host.Outcome State Fault Refusal :=
  .next <|
    ((s.withInReset true).withRing { s.ring with inFlight := none, timer := false }).mapPorts fun _ q => q.abandon

/-- RESET_RELEASE (R9, R12, R31, R51, R71, R87, R111, R148, R163, R175, R176, R180, R195): every block takes its reset
values and each port samples its straps. The levels of ENCA, ENCB and PnSEL are the pins' own. -/
def execResetRelease (straps0 straps1 straps2 straps3 : BitVec 2) (s : State) : Host.Outcome State Fault Refusal :=
  let strapped : PortId → Role := fun n =>
    match n with
    | 0 => strapRole straps0
    | 1 => strapRole straps1
    | 2 => strapRole straps2
    | 3 => strapRole straps3
  .next
    { State.reset with
      pos := { Position.reset with encA := s.pos.encA, encB := s.pos.encB }
      ports := Vector.ofFn fun n => { Port.reset (actingRole strapped n) with sel := (s.port n).sel }
      freeIndex := s.freeIndex
      pending := s.pending }

end Sys2Proof.Machine
end

