-- ==== Sys2Proof/Machine/Dispatch.lean ====
section
/-! DEFINITION. What each command does: one arm per row of spec/opcode_table.json, in the table's order. -/

namespace Sys2Proof.Machine

def exec (i : Instr) (s : State) : Host.Outcome State Fault Refusal :=
  match i with
  | .resetAssert => Sys2Proof.Machine.execResetAssert s
  | .resetRelease a b c d => Sys2Proof.Machine.execResetRelease a b c d s
  | .encoderEdge a b => Sys2Proof.Machine.execEncoderEdge a b s
  | .driveCycle => Sys2Proof.Machine.execDriveCycle s
  | .ringFrameReturn words => Sys2Proof.Machine.execRingFrameReturn words s
  | .turnaroundExpiry received => Sys2Proof.Machine.execTurnaroundExpiry received s
  | .doseTick => Sys2Proof.Machine.execDoseTick s
  | .seamPulse => Sys2Proof.Machine.execSeamPulse s
  | .frameBroken port how => Sys2Proof.Machine.execFrameBroken port how s
  | .kindRefused port kind tag payload => Sys2Proof.Machine.execKindRefused port kind tag payload s
  | .fetch port tag payload => Sys2Proof.Machine.execFetch port tag payload s
  | .linePut port tag payload => Sys2Proof.Machine.execLinePut port tag payload s
  | .screenPut port tag payload => Sys2Proof.Machine.execScreenPut port tag payload s
  | .screenTune port tag payload => Sys2Proof.Machine.execScreenTune port tag payload s
  | .screenGet port tag payload => Sys2Proof.Machine.execScreenGet port tag payload s
  | .stretchSet port tag payload => Sys2Proof.Machine.execStretchSet port tag payload s
  | .groupAlign port tag payload => Sys2Proof.Machine.execGroupAlign port tag payload s
  | .engage port tag payload => Sys2Proof.Machine.execEngage port tag payload s
  | .lift port tag payload => Sys2Proof.Machine.execLift port tag payload s
  | .faultTake port tag payload => Sys2Proof.Machine.execFaultTake port tag payload s
  | .screenClear port tag payload => Sys2Proof.Machine.execScreenClear port tag payload s
  | .runBegin port tag payload => Sys2Proof.Machine.execRunBegin port tag payload s
  | .runDrain port tag payload => Sys2Proof.Machine.execRunDrain port tag payload s
  | .runAbort port tag payload => Sys2Proof.Machine.execRunAbort port tag payload s
  | .segmentGet port tag payload => Sys2Proof.Machine.execSegmentGet port tag payload s
  | .webWhere port tag payload => Sys2Proof.Machine.execWebWhere port tag payload s
  | .regReport port tag payload => Sys2Proof.Machine.execRegReport port tag payload s
  | .zonePut port tag payload => Sys2Proof.Machine.execZonePut port tag payload s
  | .zoneSample port tag payload => Sys2Proof.Machine.execZoneSample port tag payload s
  | .curePut port tag payload => Sys2Proof.Machine.execCurePut port tag payload s
  | .zoneContents port tag payload => Sys2Proof.Machine.execZoneContents port tag payload s
  | .reportTake port tag payload => Sys2Proof.Machine.execReportTake port tag payload s
  | .rollGet port tag payload => Sys2Proof.Machine.execRollGet port tag payload s
  | .statusGet port tag payload => Sys2Proof.Machine.execStatusGet port tag payload s
  | .attnEnable port tag payload => Sys2Proof.Machine.execAttnEnable port tag payload s
  | .attnTake port tag payload => Sys2Proof.Machine.execAttnTake port tag payload s
  | .selectAsserted port => Sys2Proof.Machine.execSelectAsserted port s
  | .wordCompleted port word => Sys2Proof.Machine.execWordCompleted port word s
  | .selectReleased port bits part => Sys2Proof.Machine.execSelectReleased port bits part s

end Sys2Proof.Machine
end

