-- ==== Sys2Proof/Safety.lean ====
section
/-! DEFINITION. The terms that claims about the machine use: what arrives at a port and what it holds afterwards, the
conditions behind the level kinds, and the properties that every step keeps. -/

namespace Sys2Proof.Machine

/-! ### Requests -/

/-- The command of a request kind. -/
def Kind.command (k : Kind) (n : PortId) (tag : Byte) (payload : List Word) : Instr :=
  match k with
  | .linePut => .linePut n tag payload
  | .screenPut => .screenPut n tag payload
  | .screenTune => .screenTune n tag payload
  | .screenGet => .screenGet n tag payload
  | .stretchSet => .stretchSet n tag payload
  | .groupAlign => .groupAlign n tag payload
  | .engage => .engage n tag payload
  | .lift => .lift n tag payload
  | .faultTake => .faultTake n tag payload
  | .screenClear => .screenClear n tag payload
  | .runBegin => .runBegin n tag payload
  | .runDrain => .runDrain n tag payload
  | .runAbort => .runAbort n tag payload
  | .segmentGet => .segmentGet n tag payload
  | .webWhere => .webWhere n tag payload
  | .regReport => .regReport n tag payload
  | .zonePut => .zonePut n tag payload
  | .curePut => .curePut n tag payload
  | .zoneSample => .zoneSample n tag payload
  | .zoneContents => .zoneContents n tag payload
  | .reportTake => .reportTake n tag payload
  | .rollGet => .rollGet n tag payload
  | .statusGet => .statusGet n tag payload
  | .attnEnable => .attnEnable n tag payload
  | .attnTake => .attnTake n tag payload

/-- The part is out of reset, port n acts in a role, and the payload is one that a frame can declare. -/
abbrev State.hears (s : State) (n : PortId) (r : Role) (payload : List Word) : Prop :=
  s.inReset = false ∧ (s.port n).role = r ∧ payload.length ≤ 64

/-- As `hears`, for the requests that every role may make. -/
abbrev State.hearsAny (s : State) (payload : List Word) : Prop := s.inReset = false ∧ payload.length ≤ 64

/-- Port n has received a whole frame and holds a reply to it; everything else is as in s. -/
def State.answered (s : State) (n : PortId) (kind tag : Byte) (payload : List Word) (code : Status) (index : Nat)
    (words : List Word) : State :=
  (s.receiveFrame n kind tag payload).holdReply n kind tag { code := code, index := index, words := words }

/-- Every field of a run stands within its bounds, as far as both lists go. -/
def allWithin (bounds : List (Nat × Nat)) (fs : List Field) : Prop :=
  ∀ (i : Nat) (f : Field) (b : Nat × Nat), fs[i]? = some f → bounds[i]? = some b → b.1 ≤ f.value ∧ f.value ≤ b.2

/-- A field is the first of a run outside its bounds. -/
def firstOutOfRange (bounds : List (Nat × Nat)) (fs : List Field) (f : Field) : Prop :=
  ∃ (i : Nat) (b : Nat × Nat), fs[i]? = some f ∧ bounds[i]? = some b ∧ (f.value < b.1 ∨ b.2 < f.value)
    ∧ allWithin bounds (fs.take i)

/-- What a request of one index 0 … 23 is refused with for its payload (R30, R46, R55, R64, R82): RANGE at the payload
count for no field, and naming the field out of range or the second field. Where the first is out of range and a second
follows, which of the two is named is left open. -/
def Kind.ChecksOneIndex (k : Kind) : Prop :=
  ∀ (s : State) (n : PortId) (tag : Byte) (payload : List Word), s.hearsAny payload →
    (k ≠ .screenGet → (s.port n).role = .line) →
    ∀ refused : Nat → Prop,
      (∀ i, refused i ↔ exec (k.command n tag payload) s = .next (s.answered n k.code tag payload .range i [])) →
      (fields payload = [] → refused payload.length)
      ∧ (∀ f, fields payload = [f] → 24 ≤ f.value → refused f.index)
      ∧ (∀ f g rest, fields payload = f :: g :: rest → f.value < 24 → refused g.index)
      ∧ (∀ f g rest, fields payload = f :: g :: rest → 24 ≤ f.value → refused f.index ∨ refused g.index)

/-- The screen table with the presence and the kind of screen j replaced: the groups after a record (R24). -/
def State.regrouped (s : State) (j : ScreenId) (present : Bool) (kind : ScreenKind) : Vector Screen 24 :=
  s.screens.set j { s.screen j with present := present, kind := kind }

/-- A record for screen j tests the engagement state of screen m (R24): m is in j's group before the record or, unless
the record removes or demotes an anchor (assumption log 30), in its group after it. -/
def State.tests (s : State) (j m : ScreenId) (after : Vector Screen 24) : Prop :=
  ∃ a, (anchorOf s.screens j = some a ∧ anchorOf s.screens m = some a)
    ∨ (¬ ((s.screen j).present = true ∧ (s.screen j).kind = .anchor
          ∧ ¬ (after[j].present = true ∧ after[j].kind = .anchor))
        ∧ anchorOf after j = some a ∧ anchorOf after m = some a)

/-- Two ports agree in all but their attention sets and lines. -/
def Port.sameSerial (a b : Port) : Prop :=
  a.role = b.role ∧ a.rx = b.rx ∧ a.kind = b.kind ∧ a.tag = b.tag ∧ a.count = b.count ∧ a.payload = b.payload
    ∧ a.check = b.check ∧ a.held = b.held ∧ a.fetch = b.fetch ∧ a.sel = b.sel ∧ a.dataOut = b.dataOut

/-- Two screens agree in structure, extension, tuning and aligned flag. -/
def Screen.sameRecord (a b : Screen) : Prop :=
  a.present = b.present ∧ a.kind = b.kind ∧ a.dist = b.dist ∧ a.limit = b.limit ∧ a.ext = b.ext
    ∧ a.tuning = b.tuning ∧ a.aligned = b.aligned

/-- The words received begin with a header that passes its check and carries this count (R73, R184, R185). -/
abbrev headerGood (count : Byte) (words : List Word) : Prop :=
  words[0]? = some (BitVec.ofNat 16 (0xA500 + count.toNat))
    ∧ words[1]? = some (~~~(BitVec.ofNat 16 (0xA500 + count.toNat)))

/-- A command takes the turnaround of the frame in flight, with the reply of each slot: a returned frame, or the expiry
of its timer with the words received so far (R73). -/
abbrev State.turnaroundBy (s : State) (c : Instr) (reply : ScreenId → Option DriveReply) : Prop :=
  s.inReset = false ∧ ∃ (count : Byte) (words : List Word), s.ring.inFlight = some count
    ∧ ((headerGood count words ∧ reply = slotReply words
          ∧ (c = .ringFrameReturn words ∨ (s.ring.timer = true ∧ c = .turnaroundExpiry words)))
        ∨ (¬ headerGood count words ∧ (reply = fun _ => none) ∧ s.ring.timer = true
          ∧ c = .turnaroundExpiry words))

/-- The fault that a slot gives its screen (R75, R76): from the record before the turnaround, the reply, and the ring
state after it. -/
def Screen.gives (x : Screen) (reply : Option DriveReply) (after : RingState) (c : FaultCause) : Prop :=
  (c = .drive ∧ reply.map DriveReply.state = some .fault ∧ x.last.map DriveReply.state ≠ some .fault)
  ∨ (c = .dropped ∧ (x.eng.state = .printing ∨ x.eng.state = .ending)
      ∧ (reply.map DriveReply.state = some .raised ∨ reply.map DriveReply.state = some .travel))
  ∨ (c = .ring ∧ reply = none ∧ x.miss = 3 ∧ after = .lost)
  ∨ (c = .noReply ∧ reply = none ∧ x.miss = 3 ∧ after ≠ .lost)

/-- The excess x_z of a zone (R139). -/
def Zone.rate (tBase : Nat) (z : Zone) : Nat :=
  match z.freshness with
  | .dead => 0
  | .fresh | .stale => (max z.temp tBase - tBase) * z.weight / 128

/-- A run of commands, each on the state the one before left. -/
def runCommands : List Instr → State → Host.Outcome State Fault Refusal
  | [], s => .next s
  | c :: cs, s =>
    match exec c s with
    | .next t => runCommands cs t
    | .fault r => .fault r
    | .refused r => .refused r

/-! ### Crossings of a drive cycle (R36 to R40, R54, R61) -/

/-- Channel k crosses forward in the drive cycle from s to t: r_k with ΔP less the change of E_k reaches Lcur_k (R36). -/
abbrev State.crossesForward (s t : State) (k : ScreenId) : Prop :=
  (s.screen k).present = true
    ∧ (s.screen k).chan.lcur ≤
      (s.screen k).chan.r + ((t.pos.p - s.pos.p) - (effTrim t.screens k - effTrim s.screens k))

/-- Channel 0 crosses forward into new ground: the line is in RUN and n_0, increased by one, exceeds the high-water mark
(R38). -/
abbrev State.handsNewGround (s t : State) : Prop :=
  s.crossesForward t 0 ∧ s.web.lineState = .run ∧ s.phase.highWater < (s.screen 0).chan.n + 1

/-- The state that channel 0's creation in the drive cycle from s to t makes: P, the channels and the engagement states
are those after the cycle, all else is as before it (R38, R95). -/
def State.afterCreation (s t : State) : State := ({ s with pos := t.pos, screens := t.screens } : State).create

/-- The state whose queue, rolls and reports the rest of the drive cycle from s to t finds: that of the creation, if there
was one (R38, R95). -/
def State.found (s t : State) : State := if s.handsNewGround t then s.afterCreation t else s

/-- The Web Map that the crossings, the window tests and the camera test of the drive cycle from s to t find: with the
creation in it, if there was one (R40, R95). -/
def State.webFound (s t : State) : WebMap := (s.found t).web

/-- The forward crossing of screen k in that cycle is the one that hands new ground over (R38, R54, R61). -/
abbrev State.onNewGround (s t : State) (k : ScreenId) : Prop := k = 0 ∧ s.handsNewGround t

/-- The seq entered at a forward crossing of screen k in that cycle (R54). -/
def State.entered (s t : State) (k : ScreenId) : Nat :=
  if s.onNewGround t k then s.web.nextSeq
  else ((containing (s.webFound t).queue (t.design k)).map Segment.seq).getD (s.webFound t).nextSeq

/-- The arriving seq of screen k at the window test of that cycle (R54). -/
def State.arriving (s t : State) (k : ScreenId) : Nat :=
  (((s.webFound t).queue.find? fun g => decide (t.design k < g.start)).map Segment.seq).getD (s.webFound t).nextSeq

/-- Screen k marks the segment it enters in that cycle: it crosses forward, not into new ground, and is PRINTING, or
still ENDING, after the transitions of the crossing (R61). -/
def State.marks (s t : State) (k : ScreenId) : Prop :=
  s.crossesForward t k ∧ ¬ s.onNewGround t k ∧ (t.engState k = .printing ∨ t.engState k = .ending)

/-! ### Hold output (R84) -/

/-- HOLD is asserted exactly while the ring is LOST, or hold on fault is yes and a planned screen is FAULTED. -/
def State.HoldFollows (s : State) : Prop :=
  s.ring.hold = true ↔
    s.ring.state = .lost ∨ (s.line.holdOnFault = true ∧ ∃ k, inSet s.planned k = true ∧ s.engState k = .faulted)

/-! ### Attention (R186 to R190) -/

/-- The condition of a level kind holds; a latched kind has no condition. -/
def State.levelHolds (s : State) : EventKind → Prop
  | .reportsWaiting => s.reports ≠ []
  | .faultsWaiting => s.ring.faults ≠ []
  | .webStill => s.pos.motion = .still
  | .ringLost => s.ring.state = .lost
  | .segmentAtCamera | .screenFault | .trimAtLimit | .reportLost | .segmentEvicted | .zoneStale | .zoneDead
  | .cureFault | .rollClosed | .drainDone | .motionClamp | .seqExhausted | .rollTableFull => False

/-- A set of kinds holds a kind: the bit of its code (R188). -/
def hasKind (set : KindSet) (e : EventKind) : Prop := set.getLsbD e.toCode = true

/-- A role may see a kind: the table of kinds of spec/11. -/
def Role.sees : Role → EventKind → Prop
  | .line, _ | .observe, _ => True
  | .oven, e => e = .webStill ∨ e = .ringLost ∨ e = .zoneStale ∨ e = .zoneDead ∨ e = .cureFault ∨ e = .drainDone
  | .inspect, e => e = .webStill ∨ e = .ringLost ∨ e = .segmentAtCamera ∨ e = .trimAtLimit

/-- A kind is pending on a port (R186, R189). -/
def State.pendingOn (s : State) (n : PortId) (e : EventKind) : Prop :=
  hasKind (s.port n).latched e ∨ ((s.port n).role.sees e ∧ s.levelHolds e)

/-- Every attention line is asserted exactly when its port's pending and enabled sets share a kind; while RESETN is
asserted every line is released (R190, R195). -/
def State.LinesFollow (s : State) : Prop :=
  ∀ n, (s.port n).line = true ↔
    s.inReset = false ∧ ∃ e, s.pendingOn n e ∧ hasKind (s.port n).enabled e

/-- Both sets of every port hold only kinds its role may see, and no two ports act as LINE or as OVEN (R176, R189). -/
def State.PortsWithinRoles (s : State) : Prop :=
  (∀ n e, hasKind (s.port n).latched e ∨ hasKind (s.port n).enabled e → (s.port n).role.sees e)
  ∧ ∀ m n, m ≠ n → (s.port m).role = (s.port n).role → (s.port m).role ≠ .line ∧ (s.port m).role ≠ .oven

/-! ### Position (R6, R8) -/

/-- P lies within its bounds, the still counter saturates at 200, and the motion state is STILL exactly at 200. -/
def State.PositionLawful (s : State) : Prop :=
  0 ≤ s.pos.p ∧ s.pos.p ≤ 1099511627775 ∧ s.pos.still ≤ 200 ∧ (s.pos.motion = .still ↔ s.pos.still = 200)

/-! ### Screens (R15, R18, R20, R44) -/

/-- What the manual keeps true of one screen. -/
def Screen.Lawful (x : Screen) : Prop :=
  (x.present = false ↔ x.eng.state = .absent)
  ∧ (x.present = false → x.miss = 0 ∧ x.last = none)
  ∧ (x.aligned = true → x.present = true ∧ x.kind = .anchor)
  ∧ (x.eng.state = .faulted ↔ x.eng.cause ≠ none)
  ∧ x.miss ≤ 4
  ∧ 0 ≤ x.limit ∧ x.limit ≤ 3000
  ∧ -x.limit ≤ x.chan.target ∧ x.chan.target ≤ x.limit
  ∧ -x.limit ≤ x.chan.applied ∧ x.chan.applied ≤ x.limit
  ∧ 1 ≤ x.tuning.slew ∧ x.tuning.slew ≤ 64

/-- Every screen is lawful; whenever any screen is present, screen 0 is a present anchor at distance 0; the trims of
screen 0 are 0. -/
def State.ScreensLawful (s : State) : Prop :=
  (∀ k, (s.screen k).Lawful)
  ∧ ((∃ k, (s.screen k).present = true) →
      (s.screen 0).present = true ∧ (s.screen 0).kind = .anchor ∧ (s.screen 0).dist = 0)
  ∧ (s.screen 0).chan.target = 0 ∧ (s.screen 0).chan.applied = 0

/-! ### Channels (R32, R33, R41, R42) -/

/-- A repeat length within 38,750 … 211,200 LU. -/
def lengthInRange (v : Int) : Prop := 38750 ≤ v ∧ v ≤ 211200

/-- Every channel holds 0 ≤ r_k < Lcur_k, with Lcur_k in its range, K_k its gear constant and the phase setpoint within
0 … 65,535; L_fab is the staged repeat, the lengths of the queued segments are in range, and P is within its bounds. -/
def State.ChannelsInRange (s : State) : Prop :=
  (0 ≤ s.pos.p ∧ s.pos.p ≤ 1099511627775)
  ∧ (∀ k,
    0 ≤ (s.screen k).chan.r ∧ (s.screen k).chan.r < (s.screen k).chan.lcur ∧ lengthInRange (s.screen k).chan.lcur
    ∧ (s.screen k).chan.gear = 4294967296 / (s.screen k).chan.lcur
    ∧ 0 ≤ (s.screen k).chan.setpoint ∧ (s.screen k).chan.setpoint ≤ 65535
    ∧ 1 ≤ (s.screen k).tuning.slew ∧ (s.screen k).tuning.slew ≤ 64)
  ∧ 40000 ≤ s.line.lScr ∧ s.line.lScr ≤ 204800 ∧ -2048 ≤ s.phase.stretch ∧ s.phase.stretch ≤ 2048
  ∧ s.phase.lFab = s.line.lScr + (s.line.lScr * s.phase.stretch + 32768) / 65536
  ∧ ∀ g ∈ s.web.queue, lengthInRange g.length

/-! ### Engagement and the planned set (R25, R53) -/

/-- Outside RUN nothing is planned; ARMED, LOWERING and PRINTING screens are planned and ENDING screens are not. -/
def State.PlannedFollows (s : State) : Prop :=
  (s.web.lineState ≠ .run → s.planned = 0)
  ∧ ∀ k,
    (s.engState k = .armed ∨ s.engState k = .lowering ∨ s.engState k = .printing → inSet s.planned k = true)
    ∧ (s.engState k = .ending → inSet s.planned k = false)

/-! ### The queues (R80, R94, R98, R102, R115, R155) -/

/-- The seqs of the segment reports that wait, oldest first. -/
def reportSeqs (l : List Report) : List Nat :=
  l.filterMap fun r => match r with | .segment x => some x.seq | .roll _ => none

/-- Every record after the first starts where the one before it ends. -/
def Contiguous : List Segment → Prop
  | [] | [_] => True
  | a :: b :: rest => b.start = a.start + a.length ∧ Contiguous (b :: rest)

/-- The segment queue is contiguous; the seqs of the waiting segment reports and of the queued records, taken in that
order, rise strictly; every queued seq is below the next seq, or at it once seqs are exhausted. -/
def State.QueueInOrder (s : State) : Prop :=
  Contiguous s.web.queue
  ∧ (reportSeqs s.reports ++ s.web.queue.map Segment.seq).Pairwise (· < ·)
  ∧ (∀ q ∈ reportSeqs s.reports ++ s.web.queue.map Segment.seq,
      1 ≤ q ∧ q ≤ s.web.nextSeq ∧ (s.web.exhausted = false → q < s.web.nextSeq))
  ∧ 1 ≤ s.web.nextSeq ∧ s.web.nextSeq ≤ 4294967295

/-- The segment queue holds at most 256 records, the exit report queue at most 32 reports, the roll table at most 8
rolls and the fault list one entry a screen with repeat counts 1 … 255; a register list stands in increasing screen
index and holds no entry for screen 0 (R115); in SETUP no segment is queued and no roll is open. -/
def State.ListsBounded (s : State) : Prop :=
  s.web.queue.length ≤ 256 ∧ s.reports.length ≤ 32 ∧ s.web.rolls.length ≤ 8
  ∧ (s.ring.faults.map FaultEntry.screen).Nodup
  ∧ (∀ e ∈ s.ring.faults, 1 ≤ e.repeats ∧ e.repeats ≤ 255)
  ∧ (∀ g ∈ s.web.queue, (g.regs.map RegEntry.screen).Pairwise (· < ·) ∧ ∀ e ∈ g.regs, e.screen ≠ 0)
  ∧ (s.web.lineState = .setup → s.web.queue = [] ∧ s.web.rolls = [])

/-! ### What leavings and closings make of the rolls and offer as reports (R92, R97, R100, R106, R149, R158) -/

/-- The roll table, and the reports offered so far, oldest first; those that find no room are lost (R155, R156). -/
structure Ledger where
  rolls : List Roll
  offered : List Report
  deriving DecidableEq, Repr

/-- A record leaves: its roll is tallied with its grade, and its segment report is offered (R149, R153, R154). -/
def Ledger.leave (line : LineSettings) (cure : CureProfile) (way : WayOut) (g : Segment) (l : Ledger) : Ledger :=
  { rolls := l.rolls.map fun r =>
      if r.id = g.roll then r.leave (gradeOf (faultsOf line cure way g)) g.length else r
    offered := l.offered ++ [.segment (segmentReport way (faultsOf line cure way g) g)] }

/-- The roll that the NEXT_ROLL test of an id closes, if any: it holds no queued record while a later roll of the table
holds one (R106). -/
def nextRollCloses (queue : List Segment) (id : Nat) (rolls : List Roll) : Option Roll :=
  match rolls.dropWhile fun r => decide (r.id ≠ id) with
  | [] => none
  | r :: later =>
    if (∀ q ∈ queue, q.roll ≠ id) ∧ ∃ q ∈ queue, ∃ x ∈ later, q.roll = x.id then some r else none

/-- The NEXT_ROLL test of an id: a roll that closes leaves the table, and its roll report is offered (R106, R158). -/
def Ledger.nextRoll (queue : List Segment) (id : Nat) (l : Ledger) : Ledger :=
  match nextRollCloses queue id l.rolls with
  | none => l
  | some r =>
    { rolls := l.rolls.filter fun x => decide (x.id ≠ id), offered := l.offered ++ [.roll (rollReport .nextRoll r)] }

/-- Records leave by exit one after another, each with the NEXT_ROLL test of its roll, `staying` being the queue behind
them (R100). -/
def Ledger.exits (line : LineSettings) (cure : CureProfile) (staying : List Segment) : List Segment → Ledger → Ledger
  | [], l => l
  | g :: rest, l => Ledger.exits line cure staying rest ((l.leave line cure .exit g).nextRoll (rest ++ staying) g.roll)

/-- Every roll of the table closes, in table order (R92). -/
def Ledger.drain (l : Ledger) : Ledger :=
  { rolls := [], offered := l.offered ++ l.rolls.map fun r => .roll (rollReport .drain r) }

/-- The exit report queue after reports are offered to it: as far as it has room for 32 (R155, R156). -/
def offeredTo (reports offered : List Report) : List Report := (reports ++ offered).take (max 32 reports.length)

/-- A report is a roll report. -/
def Report.isRoll : Report → Prop
  | .roll _ => True
  | .segment _ => False

/-! ### The roll table (R102 to R107) -/

/-- A roll may hold a record with this last coordinate: it is the opening roll, or its seam is at most that coordinate
(R103). -/
def Roll.mayHold (r : Roll) (last : Int) : Prop := ∀ c, r.seamAt = some c → c ≤ last

/-- Every id is followed by the one that is issued after it (R107). -/
def IdsFollow : List Nat → Prop
  | [] | [_] => True
  | a :: b :: rest => (b = if a = 65535 then 1 else a + 1) ∧ IdsFollow (b :: rest)

/-- Every roll after the first has a seam, at least this distance beyond the seam of the roll before it (R102, R104). -/
def SeamsSpaced (least : Int) : List Roll → Prop
  | [] | [_] => True
  | a :: b :: rest =>
    (∃ c, b.seamAt = some c ∧ ∀ d, a.seamAt = some d → d + least ≤ c) ∧ SeamsSpaced least (b :: rest)

/-- The roll table: consecutive ids, no two alike, up to the next roll id; seams in rising order, apart by twice the
shortest staged repeat; in RUN a last roll, whose seam is the last seam. Every queued record names the last roll of the
table that may hold it, or the first where none may (assumption log 31), and its length is that of a staged repeat;
segments left counts the queued records of a roll; the head of the queue belongs to the first roll. -/
def State.RollsFollow (s : State) : Prop :=
  IdsFollow (s.web.rolls.map Roll.id ++ [s.web.nextRollId])
  ∧ (s.web.rolls.map Roll.id).Nodup
  ∧ (∀ id ∈ s.web.nextRollId :: s.web.rolls.map Roll.id, 1 ≤ id ∧ id ≤ 65535)
  ∧ SeamsSpaced (2 * stagedRepeat s.line.lScr (-2048)) s.web.rolls
  ∧ (s.web.lineState = .run → ∃ r ∈ s.web.rolls.getLast?, r.seamAt = s.web.lastSeam)
  ∧ (∀ g ∈ s.web.queue,
      stagedRepeat s.line.lScr (-2048) ≤ g.length ∧ g.length ≤ stagedRepeat s.line.lScr 2048
      ∧ ∃ before r after, s.web.rolls = before ++ r :: after ∧ g.roll = r.id
        ∧ (before = [] ∨ r.mayHold (g.start + g.length - 1)) ∧ ∀ x ∈ after, ¬ x.mayHold (g.start + g.length - 1))
  ∧ (∀ r ∈ s.web.rolls, r.left = (s.web.queue.filter fun g => g.roll == r.id).length)
  ∧ (∀ g ∈ s.web.queue.head?, ∀ r ∈ s.web.rolls.head?, g.roll = r.id)

/-- A property that every step keeps. -/
def KeptByStep (inv : State → Prop) : Prop := ∀ s t, inv s → step s = .next t → inv t

end Sys2Proof.Machine
end

