-- ==== Sys2Proof/Certificates/Slice0/Obligations.lean ====
section
/-! DEFINITION. The statements for the provers: what each command does, and what every step keeps. -/

open Sys2Proof Sys2Proof.Machine

/-! ### Steps and reset -/

/-- A step runs the command at the front of the queue on the state with the queue's rest. -/
def Obligations.StepRunsFrontCommand : Prop :=
  ∀ (c : Instr) (rest : List Instr) (s : State), step (s.withPending (c :: rest)) = exec c (s.withPending rest)

/-- The state after reset has every property that the statements below keep. -/
def Obligations.ResetStateHasEveryInvariant : Prop :=
  State.reset.HoldFollows ∧ State.reset.LinesFollow ∧ State.reset.PortsWithinRoles ∧ State.reset.PositionLawful
  ∧ State.reset.ScreensLawful ∧ State.reset.ChannelsInRange ∧ State.reset.PlannedFollows ∧ State.reset.QueueInOrder
  ∧ State.reset.ListsBounded ∧ State.reset.RollsFollow

/-- RESET_ASSERT: no frame is in flight, every port is IDLE with its receive registers cleared, PnDO at 0 and PnATN
released; what else is held stays until the release (the model's choice, assumption log 6). -/
def Obligations.ResetAssertAbandonsEveryPort : Prop :=
  ∀ s : State, ∃ t : State,
    exec .resetAssert s = .next t
    ∧ t = { s with inReset := true, ring := { s.ring with inFlight := none, timer := false }, ports := t.ports }
    ∧ ∀ n, t.port n =
        { s.port n with
          rx := .idle, kind := none, tag := none, count := 0, payload := [], check := 0xFFFF, fetch := none,
          dataOut := 0, line := false }

/-- RESET_RELEASE: every block takes its reset values, every port its role by the duplicate rule. That the levels of ENCA,
ENCB and PnSEL are the pins' own, and that the counter of free values goes on, is the model's choice (assumption log 7
and 9). -/
def Obligations.ResetReleaseGivesResetValues : Prop :=
  ∀ (a b c d : BitVec 2) (s : State), ∃ t : State,
    exec (.resetRelease a b c d) s = .next t
    ∧ t.inReset = false
    ∧ t.pos = { encA := s.pos.encA, encB := s.pos.encB, raw := 0, taken := 0, lostEdge := false, p := 0, still := 200,
                motion := .still }
    ∧ t.line = { lScr := 64000, dSeam := 0, xInsp := 0, inspectionRequired := false, tolerance := 250,
                 holdOnFault := true }
    ∧ (∀ k, t.screen k =
        { present := false, kind := .anchor, dist := 0, limit := 0, ext := false,
          tuning := { lead := 10000, slew := 8, gain := 128, deadband := 0, stepLimit := 100 }, aligned := false,
          chan := { r := 0, lcur := 64000, gear := 67108, n := 0, target := 0, applied := 0, setpoint := 0,
                    lastCorrected := 0 },
          eng := { state := .absent, cause := none, startSeq := 0, stopSeq := 0, window := false }, miss := 0,
          last := none })
    ∧ t.phase = { stretch := 0, lFab := 64000, highWater := 0 }
    ∧ t.planned = 0
    ∧ t.ring.state = .down ∧ t.ring.frameCount = 0 ∧ t.ring.inFlight = none ∧ t.ring.timer = false
    ∧ t.ring.faults = [] ∧ t.ring.hold = false
    ∧ t.web = { lineState := .setup, queue := [], nextSeq := 1, exhausted := false, rolls := [], nextRollId := 1,
                lastSeam := none }
    ∧ t.oven.zones = []
    ∧ t.cure = { tBase := 1200, tScorch := 4000, doseMin := 0, doseMax := 4294967295 }
    ∧ t.reports = [] ∧ t.freeIndex = s.freeIndex ∧ t.pending = s.pending
    ∧ (∀ n, t.port n =
        { role := (t.port n).role, rx := .idle, kind := none, tag := none, count := 0, payload := [], check := 0xFFFF,
          held := { kind := 0, tag := 0, status := .none, index := 0, words := [] }, fetch := none,
          sel := (s.port n).sel, dataOut := 0, latched := 0, enabled := 0, line := false })
    ∧ ∀ (n : PortId) (strap : PortId → BitVec 2), strap 0 = a → strap 1 = b → strap 2 = c → strap 3 = d →
        ((t.port n).role = .line ↔ strap n = 0#2 ∧ ∀ m, m < n → strap m ≠ 0#2)
        ∧ ((t.port n).role = .oven ↔ strap n = 1#2 ∧ ∀ m, m < n → strap m ≠ 1#2)
        ∧ ((t.port n).role = .inspect ↔ strap n = 2#2)

/-! ### Position -/

/-- ENCODER_EDGE (R4): what one edge, two edges seen together and no edge do to the raw count and the lost-edge flag;
while RESETN is asserted nothing is counted. -/
def Obligations.EncoderEdgeCountsByDirection : Prop :=
  ∀ (a b : Bool) (s : State), ∃ t : State,
    exec (.encoderEdge a b) s = .next t
    ∧ (s.inReset = true → t = { s with pos := { s.pos with encA := t.pos.encA, encB := t.pos.encB } })
    ∧ (s.inReset = false →
        t = { s with pos := { s.pos with encA := a, encB := b, raw := t.pos.raw, lostEdge := t.pos.lostEdge } }
        ∧ (a = s.pos.encA → b = s.pos.encB → t.pos.raw = s.pos.raw ∧ t.pos.lostEdge = s.pos.lostEdge)
        ∧ (a ≠ s.pos.encA → b ≠ s.pos.encB → t.pos.raw = s.pos.raw ∧ t.pos.lostEdge = true)
        ∧ (a ≠ s.pos.encA → b = s.pos.encB →
            t.pos.lostEdge = s.pos.lostEdge ∧ t.pos.raw = if a = b then s.pos.raw - 1 else s.pos.raw + 1)
        ∧ (a = s.pos.encA → b ≠ s.pos.encB →
            t.pos.lostEdge = s.pos.lostEdge ∧ t.pos.raw = if a = b then s.pos.raw + 1 else s.pos.raw - 1))

/-- DRIVE_CYCLE on the Position Counter: the change is taken modulo 2^32 as a signed value, clamped, added to P within
its bounds; the still counter and the motion state follow; MOTION_CLAMP is added on the ports that may see it. -/
def Obligations.DriveCycleMovesPosition : Prop :=
  ∀ s : State, s.inReset = false → ∃ t : State, ∃ d offered : Int,
    exec .driveCycle s = .next t
    ∧ -2147483648 ≤ d ∧ d ≤ 2147483647 ∧ (d - ((s.pos.raw.toNat : Int) - s.pos.taken.toNat)) % 4294967296 = 0
    ∧ (d < -2000 → offered = -2000) ∧ (2000 < d → offered = 2000) ∧ (-2000 ≤ d → d ≤ 2000 → offered = d)
    ∧ (s.pos.p + offered < 0 → t.pos.p = 0)
    ∧ (1099511627775 < s.pos.p + offered → t.pos.p = 1099511627775)
    ∧ (0 ≤ s.pos.p + offered → s.pos.p + offered ≤ 1099511627775 → t.pos.p = s.pos.p + offered)
    ∧ t.pos.raw = s.pos.raw ∧ t.pos.taken = s.pos.raw ∧ t.pos.lostEdge = false
    ∧ t.pos.encA = s.pos.encA ∧ t.pos.encB = s.pos.encB
    ∧ (t.pos.p ≠ s.pos.p → t.pos.still = 0 ∧ t.pos.motion = .moving)
    ∧ (t.pos.p = s.pos.p → t.pos.still = min 200 (s.pos.still + 1)
        ∧ t.pos.motion = if 199 ≤ s.pos.still then .still else s.pos.motion)
    ∧ ∀ n, hasKind (t.port n).latched .motionClamp ↔
        hasKind (s.port n).latched .motionClamp
        ∨ ((s.port n).role.sees .motionClamp
            ∧ (d ≠ offered ∨ t.pos.p ≠ s.pos.p + offered ∨ s.pos.lostEdge = true))

/-! ### Drive cycle: channels, engagement, frame -/

/-- DRIVE_CYCLE on the channels: applied trims slew toward their targets, each present accumulator takes ΔP less the
change of E_k and crosses at most one boundary, K_k and the setpoint follow; the channel of an ABSENT screen is untouched.
A crossing takes the length of the queued segment that holds w_k, the first in queue order (assumption log 29), or L_fab
where none does; channel 0 crossing into new ground takes L_fab. -/
def Obligations.DriveCycleAdvancesChannels : Prop :=
  ∀ s : State, s.inReset = false → ∃ t : State,
    exec .driveCycle s = .next t
    ∧ ∀ k,
      ((s.screen k).present = false → (t.screen k).chan = (s.screen k).chan)
      ∧ ((s.screen k).present = true → ∃ (before after : Channel) (rho : Int),
          before = (s.screen k).chan ∧ after = (t.screen k).chan
          ∧ rho = before.r + ((t.pos.p - s.pos.p) - (effTrim t.screens k - effTrim s.screens k))
          ∧ after.target = before.target ∧ after.lastCorrected = before.lastCorrected
          ∧ ((before.target - before.applied).natAbs ≤ (s.screen k).tuning.slew → after.applied = before.target)
          ∧ ((s.screen k).tuning.slew < (before.target - before.applied).natAbs →
              after.applied = if before.applied < before.target then before.applied + (s.screen k).tuning.slew
                              else before.applied - (s.screen k).tuning.slew)
          ∧ (before.lcur ≤ rho → after.r = rho - before.lcur ∧ after.n = before.n + 1)
          ∧ (rho < before.lcur → rho < 0 → after.r = rho + after.lcur ∧ after.n = before.n - 1)
          ∧ (rho < before.lcur → 0 ≤ rho →
              after.r = rho ∧ after.n = before.n ∧ after.lcur = before.lcur ∧ after.gear = before.gear)
          ∧ (before.lcur ≤ rho ∨ rho < 0 →
              after.gear = 4294967296 / after.lcur
              ∧ (s.onNewGround t k → after.lcur = s.phase.lFab)
              ∧ (¬ s.onNewGround t k → after.lcur =
                  ((containing (s.webFound t).queue (t.design k)).map Segment.length).getD s.phase.lFab))
          ∧ after.setpoint = after.r * after.gear / 65536)

/-- DRIVE_CYCLE on the engagement states, as R59 to R63 give them: an ENDING screen parks at a forward crossing exactly
when the seq entered is at least its stop seq, a LOWERING one prints or faults there, and an ARMED one lowers in its
window exactly when its flag is set and its arriving seq is at least its start seq. The segment a seq is read from is the
first in queue order (assumption log 29), and the window tests come after every crossing of the cycle (log 16). -/
def Obligations.DriveCycleMovesEngagement : Prop :=
  ∀ s : State, s.inReset = false → ∃ t : State,
    exec .driveCycle s = .next t
    ∧ ∀ k : ScreenId,
      (s.engState k = .absent ∨ s.engState k = .parked ∨ s.engState k = .printing ∨ s.engState k = .faulted →
        (t.screen k).eng = (s.screen k).eng)
      ∧ (s.engState k = .ending →
          (s.crossesForward t k ∧ (s.screen k).eng.stopSeq ≤ s.entered t k →
            (t.screen k).eng = { (s.screen k).eng with state := .parked })
          ∧ (¬ s.crossesForward t k ∨ s.entered t k < (s.screen k).eng.stopSeq →
            (t.screen k).eng = (s.screen k).eng))
      ∧ (s.engState k = .lowering →
          (¬ s.crossesForward t k → (t.screen k).eng = (s.screen k).eng)
          ∧ (s.crossesForward t k → (s.screen k).last.map DriveReply.state = some .lowered →
              (t.screen k).eng = { (s.screen k).eng with state := .printing })
          ∧ (s.crossesForward t k → (s.screen k).last.map DriveReply.state ≠ some .lowered →
              (t.screen k).eng = { (s.screen k).eng with state := .faulted, cause := some .late, window := false }
              ∧ (∀ n, (s.port n).role.sees .screenFault → hasKind (t.port n).latched .screenFault)
              ∧ (∀ e ∈ s.ring.faults, e.screen = k → { e with repeats := min 255 (e.repeats + 1) } ∈ t.ring.faults)
              ∧ ((∀ e ∈ s.ring.faults, e.screen ≠ k) →
                  { screen := k, cause := .late, seq := s.entered t k, p := t.pos.p, repeats := 1 } ∈ t.ring.faults)))
      ∧ (s.engState k = .armed →
          ((t.screen k).chan.r < (t.screen k).chan.lcur - (s.screen k).tuning.lead →
            (t.screen k).eng = { (s.screen k).eng with window := true })
          ∧ ((t.screen k).chan.lcur - (s.screen k).tuning.lead ≤ (t.screen k).chan.r →
            (t.screen k).eng =
              if (s.screen k).eng.window = true ∧ (s.screen k).eng.startSeq ≤ s.arriving t k then
                { (s.screen k).eng with state := .lowering, window := false }
              else (s.screen k).eng))

/-- DRIVE_CYCLE sends one frame: the count rises by one from 255 to 0, the frame is in flight with the timer running,
and its 50 words carry the header and, for every screen, the command of its state and the setpoint just formed. -/
def Obligations.DriveCycleSendsSetpointFrame : Prop :=
  ∀ s : State, s.inReset = false → ∃ t : State,
    exec .driveCycle s = .next t
    ∧ t.ring.frameCount.toNat = (s.ring.frameCount.toNat + 1) % 256
    ∧ t.ring.inFlight = some t.ring.frameCount ∧ t.ring.timer = true
    ∧ t.ring.sent.length = 50
    ∧ t.ring.sent[0]? = some (BitVec.ofNat 16 (0xA500 + t.ring.frameCount.toNat))
    ∧ t.ring.sent[1]? = some (~~~(BitVec.ofNat 16 (0xA500 + t.ring.frameCount.toNat)))
    ∧ ∀ k : ScreenId, ∃ a b : Word,
      t.ring.sent[2 + 2 * k.val]? = some a ∧ t.ring.sent[3 + 2 * k.val]? = some b
      ∧ a.msb = false
      ∧ a.extractLsb' 13 2 =
          (match t.engState k with
            | .absent => 0#2
            | .parked | .armed | .faulted => 1#2
            | .lowering | .printing | .ending => 2#2)
      ∧ (a.extractLsb' 8 5).toNat = k.val
      ∧ a.extractLsb' 0 8 = slotCheck (a.extractLsb' 8 8) b
      ∧ b = if (t.screen k).present then BitVec.ofInt 16 (t.screen k).chan.setpoint else 0

/-- What a drive cycle leaves unchanged; in SETUP, with no record
queued, the whole Web Map and the exit report queue are among it. -/
def Obligations.DriveCycleFrame : Prop :=
  ∀ s : State, s.inReset = false → ∃ t : State,
    exec .driveCycle s = .next t
    ∧ t.inReset = false ∧ t.line = s.line ∧ t.oven = s.oven ∧ t.cure = s.cure ∧ t.planned = s.planned
    ∧ t.phase.stretch = s.phase.stretch ∧ t.phase.lFab = s.phase.lFab ∧ t.ring.state = s.ring.state
    ∧ t.freeIndex = s.freeIndex ∧ t.pending = s.pending
    ∧ t.web.nextRollId = s.web.nextRollId ∧ t.web.lastSeam = s.web.lastSeam
    ∧ (∀ k, (t.screen k).sameRecord (s.screen k) ∧ (t.screen k).miss = (s.screen k).miss
        ∧ (t.screen k).last = (s.screen k).last ∧ (t.screen k).eng.startSeq = (s.screen k).eng.startSeq
        ∧ (t.screen k).eng.stopSeq = (s.screen k).eng.stopSeq)
    ∧ (∀ n, (t.port n).sameSerial (s.port n) ∧ (t.port n).enabled = (s.port n).enabled
        ∧ ∀ e, hasKind (s.port n).latched e → hasKind (t.port n).latched e)
    ∧ (s.web.lineState = .setup → s.web.queue = [] →
        t.web = s.web ∧ t.reports = s.reports ∧ t.phase.highWater = s.phase.highWater)

/-! ### Web Map and grading -/

/-- A creation: the record it appends, the roll the record joins with what that roll gains and which rolls before it
close, and the next seq; with 256 records queued the head is evicted first, graded LOST, tallied in its roll and reported
with way EVICTED, with the NEXT_ROLL test of its roll; with seqs exhausted nothing is created. A drive cycle makes a
creation exactly when channel 0 crosses into new ground in RUN, and then raises the high-water mark. The roll of a record
that no roll may hold is the first of the table (assumption log 31). -/
def Obligations.CreationAppendsOneRecord : Prop :=
  (∀ s t : State, t = s.create →
    (s.web.exhausted = true →
      t.web = s.web ∧ ∀ n, (s.port n).role.sees .seqExhausted → hasKind (t.port n).latched .seqExhausted)
    ∧ (s.web.exhausted = false → ∃ g : Segment,
        (s.web.queue.length < 256 → t.web.queue = s.web.queue ++ [g])
        ∧ (256 ≤ s.web.queue.length → t.web.queue = s.web.queue.tail ++ [g]
            ∧ ∀ n, (s.port n).role.sees .segmentEvicted → hasKind (t.port n).latched .segmentEvicted)
        ∧ g = { g with
            seq := s.web.nextSeq, length := (s.screen 0).chan.lcur, stretch := s.phase.stretch, expected := s.planned,
            printed := if s.engState 0 = .printing then 1 else 0, regs := [], camera := false, dose := 0, peak := 0,
            cureUnknown := false }
        ∧ (∀ tail ∈ s.web.queue.getLast?, g.start = tail.start + tail.length)
        ∧ (s.web.queue = [] → g.start = s.pos.p - (s.screen 0).chan.r)
        ∧ (∀ (l : Ledger) (queue : List Segment),
            (s.web.queue.length < 256 → l = ⟨s.web.rolls, []⟩ ∧ queue = s.web.queue) →
            (∀ head rest, 256 ≤ s.web.queue.length → s.web.queue = head :: rest →
              l = (Ledger.leave s.line s.cure .evicted head ⟨s.web.rolls, []⟩).nextRoll rest head.roll ∧ queue = rest) →
            (g.seam = true ↔ ∃ r ∈ l.rolls, ∃ c, r.seamAt = some c ∧ g.start ≤ c ∧ c < g.start + g.length)
            ∧ ∀ (before after : List Roll) (r : Roll),
              l.rolls = before ++ r :: after → before = [] ∨ r.mayHold (g.start + g.length - 1) →
              (∀ x ∈ after, ¬ x.mayHold (g.start + g.length - 1)) →
              g.roll = r.id
              ∧ ((l.rolls.map Roll.id).Nodup → ∀ closed : List Roll,
                  closed = before.filter (fun x => queue.all fun q => q.roll != x.id) →
                  t.web.rolls = (before.filter fun x => queue.any fun q => q.roll == x.id) ++
                      { r with left := r.left + 1, firstSeq := some (r.firstSeq.getD g.seq), lastSeq := some g.seq } :: after
                  ∧ t.reports = offeredTo s.reports
                      (l.offered ++ closed.map fun x => Report.roll (rollReport .nextRoll x))
                  ∧ (∀ n, hasKind (t.port n).latched .rollClosed ↔ hasKind (s.port n).latched .rollClosed
                      ∨ ((s.port n).role.sees .rollClosed ∧ (closed ≠ [] ∨ ∃ x ∈ l.offered, x.isRoll)))))
        ∧ (s.web.nextSeq = 4294967295 → t.web.nextSeq = 4294967295 ∧ t.web.exhausted = true
            ∧ ∀ n, (s.port n).role.sees .seqExhausted → hasKind (t.port n).latched .seqExhausted)
        ∧ (s.web.nextSeq ≠ 4294967295 → t.web.nextSeq = s.web.nextSeq + 1 ∧ t.web.exhausted = false)))
  ∧ ∀ s : State, s.inReset = false → ∃ t : State,
      exec .driveCycle s = .next t
      ∧ (¬ s.handsNewGround t → t.phase.highWater = s.phase.highWater
          ∧ t.web.nextSeq = s.web.nextSeq ∧ t.web.exhausted = s.web.exhausted)
      ∧ (s.handsNewGround t →
          t.phase.highWater = (t.screen 0).chan.n ∧ (t.screen 0).chan.n = (s.screen 0).chan.n + 1
          ∧ (t.screen 0).chan.lcur = s.phase.lFab
          ∧ t.web.nextSeq = (s.afterCreation t).web.nextSeq ∧ t.web.exhausted = (s.afterCreation t).web.exhausted
          ∧ (s.afterCreation t).reports <+: t.reports
          ∧ (t.web.queue.length = (s.afterCreation t).web.queue.length → t.web.rolls = (s.afterCreation t).web.rolls)
          ∧ ∀ n e, hasKind ((s.afterCreation t).port n).latched e → hasKind (t.port n).latched e)

/-- DRIVE_CYCLE on the records that it finds, with the creation's among them: what it marks as printed (R61), which have
reached the camera (R99), SEGMENT_AT_CAMERA, and which leave at the oven exit (R100). In RUN and DRAIN the records leave
from the head as long as a trailing edge is at the exit, and a drain that this empties completes (R92). Each that leaves
is graded with way EXIT, tallied in its roll and reported, with the NEXT_ROLL test of its roll (R106) and the closures of a
completed drain after it; reports that find no room are lost. -/
def Obligations.DriveCycleLeavesNoRecordDue : Prop :=
  ∀ s : State, s.inReset = false → ∃ (t : State) (all : List Segment) (m : Nat),
    exec .driveCycle s = .next t
    ∧ all.length = (s.webFound t).queue.length ∧ m ≤ all.length ∧ t.web.queue = all.drop m
    ∧ (∀ (i : Nat) (g g' : Segment), (s.webFound t).queue[i]? = some g → all[i]? = some g' →
        g' = { g with printed := g'.printed, camera := g'.camera }
        ∧ (∀ k, inSet g'.printed k = true ↔ inSet g.printed k = true
            ∨ (s.marks t k ∧ g.start ≤ t.design k ∧ t.design k < g.start + g.length))
        ∧ (g'.camera = true ↔ g.camera = true
            ∨ (s.web.lineState ≠ .setup ∧ s.line.xInsp ≤ t.pos.p - g.start)))
    ∧ (∀ n, hasKind (t.port n).latched .segmentAtCamera ↔ hasKind (s.port n).latched .segmentAtCamera
        ∨ ((s.port n).role.sees .segmentAtCamera ∧ s.web.lineState ≠ .setup
            ∧ ∃ g ∈ (s.webFound t).queue, g.camera = false ∧ s.line.xInsp ≤ t.pos.p - g.start))
    ∧ (s.web.lineState = .setup ∨ s.oven.exit = none → m = 0)
    ∧ (s.web.lineState ≠ .setup → ∀ exit, s.oven.exit = some exit →
        (∀ g ∈ all.take m, exit ≤ t.pos.p - g.start - g.length)
        ∧ (∀ g ∈ t.web.queue.head?, t.pos.p - g.start - g.length < exit))
    ∧ (¬ (s.web.lineState = .drain ∧ m ≠ 0 ∧ m = all.length) → t.web.lineState = s.web.lineState)
    ∧ (s.web.lineState = .drain → m ≠ 0 → m = all.length →
        t.web.lineState = .setup ∧ t.web.rolls = []
        ∧ ∀ n, (s.port n).role.sees .drainDone → hasKind (t.port n).latched .drainDone)
    ∧ ∃ l l' : Ledger,
        l = Ledger.exits s.line s.cure (all.drop m) (all.take m) ⟨(s.webFound t).rolls, []⟩
        ∧ l' = (if s.web.lineState = .drain ∧ m ≠ 0 ∧ m = all.length then l.drain else l)
        ∧ t.web.rolls = l'.rolls
        ∧ t.reports = offeredTo (s.found t).reports l'.offered
        ∧ ∀ n,
          (hasKind (t.port n).latched .rollClosed ↔ hasKind ((s.found t).port n).latched .rollClosed
            ∨ ((s.port n).role.sees .rollClosed ∧ ∃ r ∈ l'.offered, r.isRoll))
          ∧ (hasKind (t.port n).latched .reportLost ↔ hasKind ((s.found t).port n).latched .reportLost
            ∨ ((s.port n).role.sees .reportLost ∧ l'.offered ≠ []
                ∧ 32 < (s.found t).reports.length + l'.offered.length))
          ∧ (hasKind (t.port n).latched .cureFault ↔ hasKind ((s.found t).port n).latched .cureFault
            ∨ ((s.port n).role.sees .cureFault ∧ ∃ g ∈ all.take m, ∃ grade,
                grade = gradeOf (faultsOf s.line s.cure .exit g)
                ∧ (grade = .overcure ∨ grade = .undercure ∨ grade = .cureUnknown)))

/-- The grade of a record is the first fault of its fault set in the ranking of R152, and PASS for an empty one; the
report carries every fault of the set, the fault of code c in bit c − 1. -/
def Obligations.GradeIsFirstFaultInRanking : Prop :=
  ∀ (line : LineSettings) (cure : CureProfile) (way : WayOut) (g : Segment) (holds : Grade → Prop),
    (holds .lost ↔ way ≠ .exit) →
    (holds .seam ↔ way = .exit ∧ g.seam = true) →
    (holds .incomplete ↔ way = .exit ∧ g.printed ≠ g.expected) →
    (holds .overcure ↔ way = .exit ∧ (cure.doseMax < g.dose ∨ cure.tScorch < g.peak)) →
    (holds .undercure ↔ way = .exit ∧ g.dose < cure.doseMin) →
    (holds .cureUnknown ↔ way = .exit ∧ g.cureUnknown = true) →
    (holds .misregister ↔ way = .exit ∧ ∃ e ∈ g.regs, e.outOfTol = true) →
    (holds .uninspected ↔ way = .exit ∧ line.inspectionRequired = true
      ∧ ∃ k : ScreenId, k ≠ 0 ∧ inSet g.expected k = true ∧ ∀ e ∈ g.regs, e.screen ≠ k) →
    ∀ r : SegmentReport, r = segmentReport way (faultsOf line cure way g) g →
      (r.grade = .pass ↔ ∀ f, f ≠ .pass → ¬ holds f)
      ∧ (∀ f, f ≠ .pass → (r.grade = f ↔ holds f ∧ ∀ f', f' ≠ .pass → f'.toCode < f.toCode → ¬ holds f'))
      ∧ (∀ f, f ≠ .pass → (r.faults.getLsbD (f.toCode - 1) = true ↔ holds f))

/-- A record that leaves is counted in its roll whatever becomes of its report; the report waits at the tail of the
exit report queue, or is discarded with REPORT_LOST at a full one; CURE_FAULT follows the grade alone. -/
def Obligations.LeavingRecordIsTalliedAndReported : Prop :=
  ∀ (way : WayOut) (g : Segment) (s t : State) (r : SegmentReport),
    t = s.gradeRecord way g → r = segmentReport way (faultsOf s.line s.cure way g) g →
    t = { s with web := { s.web with rolls := t.web.rolls }, reports := t.reports, ports := t.ports }
    ∧ t.web.rolls.length = s.web.rolls.length
    ∧ (∀ (i : Nat) (x : Roll), s.web.rolls[i]? = some x → ∃ y, t.web.rolls[i]? = some y
        ∧ (x.id ≠ g.roll → y = x)
        ∧ (x.id = g.roll →
            y.id = x.id ∧ y.seamAt = x.seamAt ∧ y.firstSeq = x.firstSeq ∧ y.lastSeq = x.lastSeq
            ∧ y.left = x.left - 1
            ∧ y.totalLength = min 281474976710655 (x.totalLength + g.length.toNat)
            ∧ y.tally.sum = x.tally.sum + 1
            ∧ ∀ c, y.tally.counts[c]? =
                if c = r.grade.toCode then (x.tally.counts[c]?).map (· + 1) else x.tally.counts[c]?))
    ∧ t.reports = (if s.reports.length < 32 then s.reports ++ [.segment r] else s.reports)
    ∧ ∀ n, (t.port n).sameSerial (s.port n) ∧ (t.port n).enabled = (s.port n).enabled
        ∧ (∀ e, hasKind (t.port n).latched e ↔
            hasKind (s.port n).latched e
            ∨ ((s.port n).role.sees e ∧ ((e = .reportLost ∧ 32 ≤ s.reports.length)
                ∨ (e = .cureFault ∧ (r.grade = .overcure ∨ r.grade = .undercure ∨ r.grade = .cureUnknown)))))

/-- SEAM_PULSE: the three ignored cases change nothing, a full roll table latches ROLL_TABLE_FULL, and a recorded seam
opens a roll, moves the records that end at or beyond it and flags the one that holds it. Where records move, the new roll
takes their number and their first and last seq, the former last roll gives them up, and its NEXT_ROLL test is made. -/
def Obligations.SeamPulseRecordsOrIgnores : Prop :=
  ∀ (s : State) (c : Int), s.inReset = false → c = s.pos.p + s.line.dSeam → ∃ t : State,
    exec .seamPulse s = .next t
    ∧ (s.line.dSeam = 0 ∨ s.web.lineState ≠ .run ∨ (∃ last, s.web.lastSeam = some last ∧ c < last + 2 * s.phase.lFab) →
        t = s)
    ∧ (s.line.dSeam ≠ 0 → s.web.lineState = .run → (∀ last, s.web.lastSeam = some last → last + 2 * s.phase.lFab ≤ c) →
        (8 ≤ s.web.rolls.length →
          t = { s with ports := t.ports }
          ∧ ∀ n, (s.port n).role.sees .rollTableFull → hasKind (t.port n).latched .rollTableFull)
        ∧ (s.web.rolls.length < 8 →
          t = { s with web := t.web, reports := t.reports, ports := t.ports }
          ∧ t.web.lineState = .run ∧ t.web.nextSeq = s.web.nextSeq ∧ t.web.exhausted = s.web.exhausted
          ∧ t.web.lastSeam = some c
          ∧ t.web.nextRollId = (if s.web.nextRollId = 65535 then 1 else s.web.nextRollId + 1)
          ∧ t.web.queue = s.web.queue.map (fun g =>
              if c ≤ g.start + g.length - 1 then
                { g with roll := s.web.nextRollId, seam := g.seam || decide (g.start ≤ c) }
              else g)
          ∧ ((∀ r ∈ s.web.rolls, r.id ≠ s.web.nextRollId) → ∃ r ∈ t.web.rolls.getLast?, r.id = s.web.nextRollId ∧ r.seamAt = some c
              ∧ r.left = (s.web.queue.filter fun g => c ≤ g.start + g.length - 1).length
              ∧ r.tally = Tally.zero ∧ r.totalLength = 0)
          ∧ ((∀ g ∈ s.web.queue, g.start + g.length - 1 < c) →
              t.web.rolls = s.web.rolls ++
                [{ id := s.web.nextRollId, seamAt := some c, firstSeq := none, lastSeq := none, left := 0,
                   tally := Tally.zero, totalLength := 0 }]
              ∧ t.reports = s.reports)
          ∧ ∀ (before : List Roll) (former : Roll) (moved : List Segment) (lowest highest : Nat) (l : Ledger),
            s.web.rolls = before ++ [former] → (∀ r ∈ before, r.id ≠ former.id) →
            (∀ r ∈ s.web.rolls, r.id ≠ s.web.nextRollId) →
            moved = s.web.queue.filter (fun g => c ≤ g.start + g.length - 1) →
            moved.head?.map Segment.seq = some lowest → moved.getLast?.map Segment.seq = some highest →
            l = Ledger.nextRoll t.web.queue former.id
              ⟨before ++
                [{ former with left := former.left - moved.length
                               firstSeq := if former.firstSeq = some lowest then none else former.firstSeq
                               lastSeq := if former.firstSeq = some lowest then none else some (lowest - 1) },
                 { id := s.web.nextRollId, seamAt := some c, firstSeq := some lowest, lastSeq := some highest,
                   left := moved.length, tally := Tally.zero, totalLength := 0 }], []⟩ →
            t.web.rolls = l.rolls ∧ t.reports = offeredTo s.reports l.offered
            ∧ ∀ n, hasKind (t.port n).latched .rollClosed ↔ hasKind (s.port n).latched .rollClosed
              ∨ ((s.port n).role.sees .rollClosed ∧ l.offered ≠ [])))

/-! ### Ring -/

/-- Which returned words are read: a frame that fails its header check, carries another count or finds no frame in flight
changes nothing, nor does an expiry with the timer stopped; a slot holds a valid reply exactly when it was received whole,
its answered mark is 1, its index is its position and its check is good, the reply being its drive state and phase. -/
def Obligations.RingFramesAreReadByTheirChecks : Prop :=
  (∀ (s : State) (words : List Word),
    ((∀ count, s.ring.inFlight = some count → ¬ headerGood count words) → exec (.ringFrameReturn words) s = .next s)
    ∧ (s.ring.timer = false ∨ s.ring.inFlight = none → exec (.turnaroundExpiry words) s = .next s))
  ∧ ∀ (words : List Word) (k : ScreenId) (r : DriveReply),
    slotReply words k = some r ↔ ∃ a : Word, words[2 + 2 * k.val]? = some a ∧ words[3 + 2 * k.val]? = some r.phase
      ∧ 32768 ≤ a.toNat ∧ a.toNat / 256 % 32 = k.val
      ∧ a.toNat % 256 = (slotCheck (BitVec.ofNat 8 (a.toNat / 256)) r.phase).toNat
      ∧ a.toNat / 8192 % 4 =
          (match r.state with | .raised => 0 | .travel => 1 | .lowered => 2 | .fault => 3)

/-- A turnaround closes the frame in flight, evaluates the slot of every present screen, moves the ring state, and
changes nothing else but engagement records, printed sets, the fault list, HOLD and the attention sets. -/
def Obligations.TurnaroundEvaluatesSlots : Prop :=
  ∀ (s : State) (c : Instr) (reply : ScreenId → Option DriveReply), s.turnaroundBy c reply → ∃ t : State,
    exec c s = .next t
    ∧ t = { s with screens := t.screens, ring := t.ring, web := { s.web with queue := t.web.queue }, ports := t.ports }
    ∧ t.ring = { s.ring with inFlight := none, timer := false, state := t.ring.state, faults := t.ring.faults,
                             hold := t.ring.hold }
    ∧ t.HoldFollows
    ∧ (∀ k, (t.screen k).sameRecord (s.screen k) ∧ (t.screen k).chan = (s.screen k).chan
        ∧ ((s.screen k).present = false → t.screen k = s.screen k)
        ∧ ((s.screen k).present = true →
            (t.screen k).last = reply k
            ∧ (t.screen k).miss = if (reply k).isSome then 0 else min 4 ((s.screen k).miss + 1)))
    ∧ t.web.queue.map (fun g => { g with printed := 0 }) = s.web.queue.map (fun g => { g with printed := 0 })
    ∧ (∀ n, (t.port n).sameSerial (s.port n) ∧ (t.port n).enabled = (s.port n).enabled)
    ∧ (s.ring.state = .down → t.ring.state = .down)
    ∧ (s.ring.state = .up →
        t.ring.state = .up ∨ t.ring.state = .lost)
    ∧ (s.ring.state = .up →
        (t.ring.state = .lost ↔ (∃ k, (t.screen k).present = true) ∧ ∀ k, (t.screen k).present = true →
          (t.screen k).miss = 4))
    ∧ (s.ring.state = .lost →
        t.ring.state = if ∃ k, (s.screen k).present = true ∧ (reply k).isSome = true then .up else .lost)

/-- The faults of a turnaround: a screen that is given one becomes FAULTED with its cause, or stays FAULTED with its
first; a new entry, with the seq of the record that holds w_k (the first in queue order, assumption log 29) or 0, or one
repeat more stands in the fault list; a screen given none keeps its engagement record. A PRINTING or ENDING screen that is
given one leaves the printed set of the record that holds w_k, and no other printed bit changes. -/
def Obligations.TurnaroundFaultsScreens : Prop :=
  ∀ (s : State) (c : Instr) (reply : ScreenId → Option DriveReply), s.turnaroundBy c reply → ∃ t : State,
    exec c s = .next t
    ∧ t.web.queue.length = s.web.queue.length
    ∧ (∀ (i : Nat) (g g' : Segment), s.web.queue[i]? = some g → t.web.queue[i]? = some g' →
        ∀ k, inSet g'.printed k = true ↔ inSet g.printed k = true
          ∧ ¬ ((s.screen k).present = true ∧ (s.engState k = .printing ∨ s.engState k = .ending)
              ∧ (∃ cause, (s.screen k).gives (reply k) t.ring.state cause)
              ∧ g.start ≤ s.design k ∧ s.design k < g.start + g.length))
    ∧ ∀ k, (s.screen k).present = true → s.engState k ≠ .absent →
        ((∀ cause, ¬ (s.screen k).gives (reply k) t.ring.state cause) →
          (t.screen k).eng = (s.screen k).eng ∧ ∀ e ∈ s.ring.faults, e.screen = k → e ∈ t.ring.faults)
        ∧ ∀ cause, (s.screen k).gives (reply k) t.ring.state cause →
            (s.engState k = .faulted → (t.screen k).eng = (s.screen k).eng)
            ∧ (s.engState k ≠ .faulted →
                (t.screen k).eng = { (s.screen k).eng with state := .faulted, cause := some cause, window := false }
                ∧ ∀ n, (s.port n).role.sees .screenFault → hasKind (t.port n).latched .screenFault)
            ∧ ((∀ e ∈ s.ring.faults, e.screen ≠ k) →
                { screen := k, cause := cause,
                  seq := ((containing s.web.queue (s.design k)).map Segment.seq).getD 0, p := s.pos.p, repeats := 1 }
                  ∈ t.ring.faults)
            ∧ (∀ e ∈ s.ring.faults, e.screen = k →
                { e with repeats := min 255 (e.repeats + 1) } ∈ t.ring.faults)

/-! ### Cure -/

/-- The overlap of a segment with a zone is the number of the path positions that it occupies and the zone covers. -/
def Obligations.OverlapCountsSharedPositions : Prop :=
  ∀ (p low high : Int) (g : Segment),
    overlap p g low high =
      ((Finset.Ico (p - g.start - g.length) (p - g.start)).filter fun x => low ≤ x ∧ x < high).card

/-- DOSE_TICK ages every zone, and then adds dose, peak and cure unknown to every queued segment that overlaps the
oven, from the zones as aged; nothing else changes but what is latched. -/
def Obligations.DoseTickAgesZonesAndAddsDose : Prop :=
  ∀ s : State, s.inReset = false → ∃ t : State,
    exec .doseTick s = .next t
    ∧ t = { s with oven := { s.oven with zones := t.oven.zones }, web := { s.web with queue := t.web.queue },
                   ports := t.ports }
    ∧ t.oven.zones.length = s.oven.zones.length ∧ t.web.queue.length = s.web.queue.length
    ∧ (∀ (i : Nat) (z : Zone), s.oven.zones[i]? = some z → ∃ age : Nat, age = min 255 (z.age + 1)
        ∧ ∃ f : Freshness, t.oven.zones[i]? = some { z with age := age, freshness := f }
        ∧ (f = .dead ↔ z.freshness = .dead ∨ 30 ≤ age)
        ∧ (f = .fresh ↔ z.freshness = .fresh ∧ age < 5))
    ∧ (∀ (i : Nat) (g : Segment), s.web.queue[i]? = some g → ∃ g' : Segment, t.web.queue[i]? = some g'
        ∧ ((∀ lz ∈ t.oven.spans, overlap s.pos.p g lz.1 lz.2.zEnd ≤ 0) → g' = g)
        ∧ ((∃ lz ∈ t.oven.spans, 0 < overlap s.pos.p g lz.1 lz.2.zEnd) →
            g' = { g with dose := g'.dose, peak := g'.peak, cureUnknown := g'.cureUnknown }
            ∧ g'.dose = min 4294967295 (g.dose + (((t.oven.spans.map fun lz =>
                overlap s.pos.p g lz.1 lz.2.zEnd * (lz.2.rate s.cure.tBase : Int)).sum) / g.length).toNat)
            ∧ g.peak ≤ g'.peak
            ∧ (∀ lz ∈ t.oven.spans, 0 < overlap s.pos.p g lz.1 lz.2.zEnd → lz.2.freshness ≠ .dead →
                lz.2.temp ≤ g'.peak)
            ∧ (g'.peak = g.peak ∨ ∃ lz ∈ t.oven.spans, 0 < overlap s.pos.p g lz.1 lz.2.zEnd
                ∧ lz.2.freshness ≠ .dead ∧ lz.2.temp = g'.peak)
            ∧ (g'.cureUnknown = true ↔ g.cureUnknown = true ∨ ∃ lz ∈ t.oven.spans,
                0 < overlap s.pos.p g lz.1 lz.2.zEnd ∧ lz.2.freshness = .dead)))
    ∧ ∀ n, (t.port n).sameSerial (s.port n) ∧ (t.port n).enabled = (s.port n).enabled
        ∧ (hasKind (t.port n).latched .zoneDead ↔ hasKind (s.port n).latched .zoneDead
            ∨ ((s.port n).role.sees .zoneDead ∧ ∃ z ∈ s.oven.zones, z.freshness ≠ .dead ∧ 29 ≤ z.age))
        ∧ (hasKind (t.port n).latched .zoneStale ↔ hasKind (s.port n).latched .zoneStale
            ∨ ((s.port n).role.sees .zoneStale ∧ ∃ z ∈ s.oven.zones, z.freshness = .fresh ∧ 4 ≤ z.age))

/-! ### Client ports -/

/-- A frame that ends before its check word, whose check word differs, or whose count is above 64 finishes with FRAME:
the header echo carries what was received whole, and nothing but the port changes. A released port in IDLE or DONE, or
one released in HEADER before any bit, keeps its reply. -/
def Obligations.BrokenFrameIsAnsweredFrame : Prop :=
  ∀ (s : State) (n : PortId), s.inReset = false →
    (∀ (how : FrameBreak), ∃ t : State, exec (.frameBroken n how) s = .next t)
    ∧ (∀ (bits : Fin 16) (part : Word), ∃ t : State, exec (.frameBroken n (.released bits part)) s = .next t
        ∧ t = { s with ports := t.ports } ∧ (∀ m, m ≠ n → t.port m = s.port m)
        ∧ (t.port n).sel = false ∧ (t.port n).rx = .idle
        ∧ ((s.port n).rx = .count ∨ (s.port n).rx = .payload ∨ (s.port n).rx = .check ∨ (s.port n).rx = .discard →
            (t.port n).held = { kind := (s.port n).kind.getD 0, tag := (s.port n).tag.getD 0, status := .frame,
                                index := 0, words := [] })
        ∧ ((s.port n).rx = .header → bits ≠ 0 →
            (t.port n).held = { kind := if bits.val < 8 then 0 else part.extractLsb' 8 8, tag := 0, status := .frame,
                                index := 0, words := [] })
        ∧ ((s.port n).rx = .idle ∨ (s.port n).rx = .done ∨ ((s.port n).rx = .header ∧ bits = 0) →
            (t.port n).held = (s.port n).held))
    ∧ (∀ w : Word, (s.port n).rx = .check → w ≠ (s.port n).check → ∃ t : State,
        exec (.frameBroken n (.checkWord w)) s = .next t
        ∧ t = { s with ports := t.ports } ∧ (∀ m, m ≠ n → t.port m = s.port m)
        ∧ t.port n = { s.port n with
            rx := .done, dataOut := 0,
            held := { kind := (s.port n).kind.getD 0, tag := (s.port n).tag.getD 0, status := .frame, index := 0,
                      words := [] } })

/-- A good FETCH frame sets the fetch pointer to the first word of the held reply and leaves the reply, whatever the
port did before; nothing but the port changes. Where PnSEL stands asserted in the middle of another frame, the whole-frame
command first releases it, and that frame finishes with FRAME (the model's choice, assumption log 1): FETCH then points at
that reply. -/
def Obligations.FetchPointsAtHeldReply : Prop :=
  ∀ (s : State) (n : PortId) (tag : Byte) (payload : List Word), s.hearsAny payload →
    ∃ t : State, exec (.fetch n tag payload) s = .next t
      ∧ t = { s with ports := t.ports } ∧ (∀ m, m ≠ n → t.port m = s.port m)
      ∧ (t.port n).fetch = some 0 ∧ (t.port n).rx = .done ∧ (t.port n).sel = true
      ∧ ((s.port n).sel = false ∨ (s.port n).rx = .idle ∨ (s.port n).rx = .done ∨ (s.port n).rx = .header →
          (t.port n).held = (s.port n).held)
      ∧ ((s.port n).sel = true →
          (s.port n).rx = .count ∨ (s.port n).rx = .payload ∨ (s.port n).rx = .check ∨ (s.port n).rx = .discard →
          (t.port n).held = { kind := (s.port n).kind.getD 0, tag := (s.port n).tag.getD 0, status := .frame, index := 0,
                              words := [] })
      ∧ (t.port n).role = (s.port n).role ∧ (t.port n).latched = (s.port n).latched
      ∧ (t.port n).enabled = (s.port n).enabled ∧ (t.port n).line = (s.port n).line

/-- The receive states under the assertion and the release of PnSEL (R164, R180). -/
def Obligations.SelectOpensAndClosesFrames : Prop :=
  ∀ (s : State) (n : PortId),
    (∃ t : State, exec (.selectAsserted n) s = .next t
      ∧ t = { s with ports := t.ports } ∧ (∀ m, m ≠ n → t.port m = s.port m)
      ∧ (s.inReset = false → (s.port n).rx = .idle → (s.port n).sel = false →
          t.port n = { s.port n with sel := true, rx := .header, kind := none, tag := none, count := 0, payload := [],
                                     check := 0xFFFF, fetch := none })
      ∧ (s.inReset = true ∨ (s.port n).rx ≠ .idle ∨ (s.port n).sel = true →
          t.port n = { s.port n with sel := true }))
    ∧ ∀ (bits : Fin 16) (part : Word), ∃ t : State, exec (.selectReleased n bits part) s = .next t
      ∧ t = { s with ports := t.ports } ∧ (∀ m, m ≠ n → t.port m = s.port m)
      ∧ (s.inReset = true → t.port n = { s.port n with sel := false })
      ∧ (s.inReset = false → (t.port n).sel = false ∧ (t.port n).rx = .idle
          ∧ ((s.port n).rx ≠ .idle → (t.port n).fetch = none)
          ∧ (t.port n).role = (s.port n).role ∧ (t.port n).latched = (s.port n).latched
          ∧ (t.port n).enabled = (s.port n).enabled ∧ (t.port n).line = (s.port n).line
          ∧ ((s.port n).rx = .idle ∨ (s.port n).rx = .done ∨ ((s.port n).rx = .header ∧ bits = 0) →
              (t.port n).held = (s.port n).held)
          ∧ ((s.port n).rx = .count ∨ (s.port n).rx = .payload ∨ (s.port n).rx = .check ∨ (s.port n).rx = .discard →
              (t.port n).held.status = .frame))

/-- The receive states under the completion of a word, in every state but CHECK (R164): what the port then holds. -/
def Obligations.WordsFillTheReceiveRegisters : Prop :=
  ∀ (s : State) (n : PortId) (w : Word), s.inReset = false → (s.port n).rx ≠ .check → ∃ t : State,
    exec (.wordCompleted n w) s = .next t
    ∧ t = { s with ports := t.ports } ∧ (∀ m, m ≠ n → t.port m = s.port m)
    ∧ ((s.port n).rx = .idle → t.port n = s.port n)
    ∧ ((s.port n).rx = .header →
        t.port n = { s.port n with
          kind := some (BitVec.ofNat 8 (w.toNat / 256)), tag := some (BitVec.ofNat 8 w.toNat),
          check := crc16Word (s.port n).check w, rx := .count, dataOut := 0 })
    ∧ ((s.port n).rx = .count →
        t.port n = { s.port n with
          count := w, check := crc16Word (s.port n).check w, dataOut := 0
          rx := if w.toNat = 0 then .check else if w.toNat ≤ 64 then .payload else .discard })
    ∧ ((s.port n).rx = .payload →
        (t.port n).payload = (s.port n).payload ++ [w] ∧ (t.port n).check = crc16Word (s.port n).check w
        ∧ ((t.port n).rx = .check ↔ (s.port n).count.toNat ≤ (s.port n).payload.length + 1)
        ∧ t.port n = { s.port n with
            payload := (t.port n).payload, check := (t.port n).check, rx := (t.port n).rx, dataOut := 0 })
    ∧ ((s.port n).rx = .discard → t.port n = { s.port n with dataOut := 0 })
    ∧ ((s.port n).rx = .done → t.port n = { s.port n with fetch := (t.port n).fetch, dataOut := (t.port n).dataOut })

/-- The words of a whole good frame, clocked in one by one after the assertion of PnSEL, make exactly the state that the
frame's command makes: the request of its kind, FETCH, or KIND_REFUSED. -/
def Obligations.FrameWordByWordIsTheCommand : Prop :=
  ∀ (s : State) (n : PortId) (kind tag : Byte) (payload : List Word) (c : Instr),
    s.hearsAny payload → (s.port n).rx = .idle → (s.port n).sel = false →
    ((∃ k : Kind, k.code = kind ∧ c = k.command n tag payload)
      ∨ (kind = 0x01 ∧ c = .fetch n tag payload)
      ∨ ((∀ k : Kind, k.code ≠ kind) ∧ kind ≠ 0x01 ∧ c = .kindRefused n kind tag payload)) →
    runCommands (.selectAsserted n :: (requestFrameWords kind tag payload).map (Instr.wordCompleted n)) s = exec c s

/-- After a good FETCH, each further word clocked shifts out one word of the held reply's frame, and 0x0000 after its
check word; the reply stays held. -/
def Obligations.FetchShiftsOutHeldReply : Prop :=
  ∀ (s : State) (n : PortId) (ws : List Word) (w : Word),
    s.inReset = false → (s.port n).rx = .done → (s.port n).fetch = some 0 →
    ∃ t : State, runCommands ((ws ++ [w]).map (Instr.wordCompleted n)) s = .next t
      ∧ (t.port n).held = (s.port n).held
      ∧ (t.port n).dataOut = ((s.port n).held.frame[ws.length]?).getD 0
      ∧ (s.port n).held.frame.length = (s.port n).held.words.length + 4

/-- What the Port Interface refuses (R177, R182): a kind that is none of the codes of the table is answered KIND, and a
request kind that the permission table does not permit to the port's acting role is answered ROLE; nothing but the port
changes. No request kind is answered KIND, and none that is permitted is answered ROLE. -/
def Obligations.PortRefusesUnknownKindsAndRoles : Prop :=
  ([Kind.linePut, .screenPut, .screenTune, .screenGet, .stretchSet, .groupAlign, .engage, .lift, .faultTake,
      .screenClear, .runBegin, .runDrain, .runAbort, .segmentGet, .webWhere, .regReport, .zonePut, .curePut,
      .zoneSample, .zoneContents, .reportTake, .rollGet, .statusGet, .attnEnable, .attnTake].map Kind.code
    = [0x10, 0x20, 0x21, 0x22, 0x28, 0x29, 0x30, 0x31, 0x38, 0x39, 0x40, 0x41, 0x42, 0x43, 0x44, 0x50, 0x60, 0x61, 0x62,
       0x63, 0x70, 0x71, 0x78, 0x7C, 0x7D])
  ∧ (∀ c : Byte, c ∉ ([0x01, 0x10, 0x20, 0x21, 0x22, 0x28, 0x29, 0x30, 0x31, 0x38, 0x39, 0x40, 0x41, 0x42, 0x43, 0x44,
      0x50, 0x60, 0x61, 0x62, 0x63, 0x70, 0x71, 0x78, 0x7C, 0x7D] : List Byte) →
    ∀ (s : State) (n : PortId) (tag : Byte) (payload : List Word), s.hearsAny payload →
      exec (.kindRefused n c tag payload) s = .next (s.answered n c tag payload .kind 0 []))
  ∧ (∀ (k : Kind) (s : State) (n : PortId) (tag : Byte) (payload : List Word), s.hearsAny payload →
      ∃ t : State, exec (k.command n tag payload) s = .next t ∧ (t.port n).held.kind = k.code
        ∧ (t.port n).held.tag = tag ∧ (t.port n).held.status ≠ .kind)
  ∧ ∀ (k : Kind) (s : State) (n : PortId) (tag : Byte) (payload : List Word) (permitted : Prop), s.hearsAny payload →
    (permitted ↔
      ((s.port n).role = .line ∧ k ≠ .regReport ∧ k ≠ .zoneSample)
      ∨ ((s.port n).role = .oven ∧ (k = .curePut ∨ k = .zoneSample ∨ k = .zoneContents))
      ∨ ((s.port n).role = .inspect ∧ k = .regReport)
      ∨ ((s.port n).role = .observe ∧ k = .zoneContents)
      ∨ k = .screenGet ∨ k = .segmentGet ∨ k = .webWhere ∨ k = .rollGet ∨ k = .statusGet ∨ k = .attnEnable
      ∨ k = .attnTake) →
    (¬ permitted → exec (k.command n tag payload) s = .next (s.answered n k.code tag payload .role 0 []))
    ∧ (permitted → ∀ t : State, exec (k.command n tag payload) s = .next t → (t.port n).held.status ≠ .role)

/-- A request that is refused, by any code and on any port, changes nothing but the port that made it; SCREEN.PUT and
SCREEN.TUNE, which apply their records in turn, are excepted. -/
def Obligations.RefusedRequestsChangeNothing : Prop :=
  ∀ (k : Kind) (s t : State) (n : PortId) (tag : Byte) (payload : List Word), s.hearsAny payload →
    k ≠ .screenPut → k ≠ .screenTune →
    exec (k.command n tag payload) s = .next t → (t.port n).held.status ≠ .ok →
    t = s.answered n k.code tag payload (t.port n).held.status (t.port n).held.index (t.port n).held.words

/-- Field decoding (R170 to R172): a payload has one field for each field word, in order; a field has the assembled
unsigned value of its counted widen words and its field word, and the two's complement of it when signed. -/
def Obligations.FieldsAssembleWidenWords : Prop :=
  (∀ payload : List Word, (fields payload).length = payload.countP fun x => x.toNat < 32768)
  ∧ ∀ (before run after : List Word) (w : Word),
    (before = [] ∨ ∃ b ∈ before.getLast?, b.toNat < 32768) → (∀ x ∈ run, 32768 ≤ x.toNat) → w.toNat < 32768 →
    ∃ (f : Field) (rest : List Field), fields (before ++ run ++ w :: after) = fields before ++ f :: rest
      ∧ f.index = before.length
      ∧ (run = [] → f.value = w.toNat ∧ f.signed = (if w.toNat < 16384 then (w.toNat : Int) else w.toNat - 32768))
      ∧ (∀ a, run = [a] →
          f.value = (a.toNat - 32768) * 32768 + w.toNat
          ∧ f.signed = if a.toNat < 49152 then (f.value : Int) else f.value - 1073741824)
      ∧ (∀ a mid b, run = a :: mid ++ [b] →
          f.value = (a.toNat - 32768) * 1073741824 + (b.toNat - 32768) * 32768 + w.toNat
          ∧ f.signed = if a.toNat < 49152 then (f.value : Int) else f.value - 35184372088832)

/-! ### Requests: position, screens, phase -/

/-- LINE.PUT accepted: the six settings, the staged repeat and HOLD, and nothing else but the port. LINE.PUT refused
(R10): STATE outside SETUP or with an active screen, then too few fields, a seventh field, and the first field out of
range; it changes nothing but the port. -/
def Obligations.LinePutReplacesSettings : Prop :=
  (∀ (s : State) (n : PortId) (tag : Byte) (payload : List Word) (l d x i e h : Field) (lFab : Int) (hold : Bool),
    s.hears n .line payload → s.web.lineState = .setup →
    (∀ k, s.engState k = .absent ∨ s.engState k = .parked ∨ s.engState k = .faulted) →
    fields payload = [l, d, x, i, e, h] →
    40000 ≤ l.value → l.value ≤ 204800 → d.value ≤ 500000 → 1 ≤ x.value → x.value ≤ 4000000 → i.value ≤ 1 →
    e.value ≤ 1000 → h.value ≤ 1 →
    lFab = l.value + (l.value * s.phase.stretch + 32768) / 65536 →
    (hold = true ↔ s.ring.state = .lost
      ∨ (h.value = 1 ∧ ∃ k, inSet s.planned k = true ∧ s.engState k = .faulted)) →
    exec (.linePut n tag payload) s = .next
      (({ s with
          line := { lScr := l.value, dSeam := d.value, xInsp := x.value, inspectionRequired := decide (i.value = 1),
                    tolerance := e.value, holdOnFault := decide (h.value = 1) },
          phase := { s.phase with lFab := lFab },
          ring := { s.ring with hold := hold } } : State).answered n 0x10 tag payload .ok 0
        (words2 l.value ++ words2 d.value ++ words2 x.value ++ words1 i.value ++ words1 e.value ++ words1 h.value)))
  ∧ ∀ (s : State) (n : PortId) (tag : Byte) (payload : List Word) (bounds : List (Nat × Nat)),
    s.hears n .line payload →
    bounds = [(40000, 204800), (0, 500000), (1, 4000000), (0, 1), (0, 1000), (0, 1)] →
    ∀ refused : Status → Nat → Prop,
      (∀ c i, refused c i ↔ exec (.linePut n tag payload) s = .next (s.answered n 0x10 tag payload c i [])) →
      (s.web.lineState ≠ .setup → refused .state 0)
      ∧ (∀ k, s.engState k ≠ .absent → s.engState k ≠ .parked → s.engState k ≠ .faulted → refused .state 0)
      ∧ (s.web.lineState = .setup →
          (∀ k, s.engState k = .absent ∨ s.engState k = .parked ∨ s.engState k = .faulted) →
          ((fields payload).length < 6 → refused .range payload.length)
          ∧ (∀ x, (fields payload)[6]? = some x → refused .range x.index)
          ∧ ((fields payload).length = 6 → ∀ x, firstOutOfRange bounds (fields payload) x → refused .range x.index))

/-- SCREEN.PUT with one record that passes its checks (R22 to R25): what it leaves of its screen, of the aligned flags,
of the ring and of the high-water mark, and that nothing else changes but HOLD and the attention lines. Then its
refusals, as of the first record: a bad start index (the write index it answers is free, assumption log 11), no record,
each check of R22 to R25 with its code and word index (a widened head is named by its first counted widen word, log 15;
a demoted anchor does not test its receiving group, log 30; a record cut short is answered at the payload count before
check 6 of R22, log 35). A refused record changes nothing but the port, whatever
records follow it; ScreenPutTakesRecordsInTurn carries this to the later records. -/
def Obligations.ScreenPutRewritesItsScreen : Prop :=
  (∀ (s : State) (n : PortId) (tag : Byte) (payload : List Word) (j : ScreenId) (f head pres kind dist lim : Field)
    (exts : List Field) (ext : Bool) (after : Vector Screen 24) (screenKind : ScreenKind),
    s.hears n .line payload →
    fields payload = f :: head :: pres :: kind :: dist :: lim :: exts → f.value = j.val →
    pres.value ≤ 1 → kind.value ≤ 1 → dist.value ≤ 2000000 → lim.value ≤ 3000 →
    ((head.value = 0 ∧ exts = [] ∧ ext = false)
      ∨ (head.value = 1 ∧ ∃ e, exts = [e] ∧ e.value ≤ 1 ∧ ext = decide (e.value = 1))) →
    (kind.value = 0 → screenKind = .anchor) → (kind.value = 1 → screenKind = .relative) →
    after = s.screens.set j { s.screen j with
      present := decide (pres.value = 1), kind := screenKind, dist := dist.value, limit := lim.value, ext := ext } →
    (s.web.lineState ≠ .setup → j ≠ 0 ∧ (pres.value = 1 → (dist.value : Int) < s.line.xInsp)) →
    (j = 0 → pres.value = 1 → kind.value = 0 ∧ dist.value = 0) →
    (j = 0 → pres.value = 0 → ∀ k, k ≠ 0 → (s.screen k).present = false) →
    (j ≠ 0 → pres.value = 1 → (s.screen 0).present = true) →
    (∀ m, s.tests j m after → s.engState m = .absent ∨ s.engState m = .parked ∨ s.engState m = .faulted) →
    (s.web.lineState = .run → ∀ m, inSet s.planned m = true →
      anchorOf after m = anchorOf s.screens m ∧ anchorOf after m ≠ none) →
    ∃ t : State, exec (.screenPut n tag payload) s = .next t
      ∧ t = { s with screens := t.screens, ring := t.ring, phase := t.phase, ports := t.ports }
      ∧ (t.port n).held = { kind := 0x20, tag := tag, status := .ok, index := 0,
                            words := words1 1 ++ words1 (if j = 23 then 0 else j.val + 1) }
      ∧ (∀ m, (m ≠ n → (t.port m).sameSerial (s.port m)) ∧ (t.port m).latched = (s.port m).latched
          ∧ (t.port m).enabled = (s.port m).enabled)
      ∧ t.screen j = { s.screen j with
          present := decide (pres.value = 1), kind := screenKind, dist := dist.value, limit := lim.value, ext := ext,
          aligned := false,
          chan := { (s.screen j).chan with
            target := 0, applied := 0, lastCorrected := 0, r := if j = 0 then 0 else (s.screen j).chan.r,
            n := if j = 0 then 0 else (s.screen j).chan.n },
          eng := { state := if pres.value = 1 then .parked else .absent, cause := none, startSeq := 0, stopSeq := 0,
                   window := false },
          miss := 0, last := none }
      ∧ (∀ k, k ≠ j → t.screen k = { s.screen k with aligned := (t.screen k).aligned }
          ∧ ((t.screen k).aligned = true ↔ (s.screen k).aligned = true
              ∧ (s.screen k).present = true ∧ (s.screen k).kind = .anchor
              ∧ anchorOf s.screens j ≠ some k ∧ anchorOf after j ≠ some k
              ∧ ∀ m, m ≠ j → (anchorOf after m = some k ↔ anchorOf s.screens m = some k)))
      ∧ t.phase = { s.phase with highWater := if j = 0 then 0 else s.phase.highWater }
      ∧ t.ring = { s.ring with state := t.ring.state, hold := t.ring.hold }
      ∧ ((∃ k, (t.screen k).present = true) →
          t.ring.state = if s.ring.state = .down then .up else s.ring.state)
      ∧ ((∀ k, (t.screen k).present = false) → t.ring.state = .down)
      ∧ t.HoldFollows)
  ∧ (∀ (s : State) (n : PortId) (tag : Byte) (payload : List Word), s.hears n .line payload →
    (fields payload = [] ∨ (∃ f rest, fields payload = f :: rest ∧ 24 ≤ f.value) → ∃ w : Word,
      exec (.screenPut n tag payload) s = .next
        (({ s with freeIndex := s.freeIndex + 1 } : State).answered n 0x20 tag payload .range 0 (words1 0 ++ [w])))
    ∧ ∀ (f : Field) (j : ScreenId) (record : List Field) (bounds : List (Nat × Nat)) (refused : Status → Nat → Prop),
      fields payload = f :: record → f.value = j.val →
      bounds = [(0, 1), (0, 1), (0, 1), (0, 2000000), (0, 3000)]
        ++ (if record.head?.map Field.value = some 1 then [(0, 1)] else []) →
      (∀ c i, refused c i ↔ exec (.screenPut n tag payload) s = .next
        (s.answered n 0x20 tag payload c i (words1 0 ++ words1 j.val))) →
      (record = [] → refused .range payload.length)
      ∧ (∀ x, firstOutOfRange bounds record x → refused .range x.index)
      ∧ (allWithin bounds record → record.length < bounds.length → refused .range payload.length))
  ∧ ∀ (s : State) (n : PortId) (tag : Byte) (payload : List Word) (j : ScreenId) (f head pres kind dist lim : Field)
    (exts more : List Field) (after : Vector Screen 24) (refused : Status → Nat → Prop),
    s.hears n .line payload →
    fields payload = f :: head :: pres :: kind :: dist :: lim :: (exts ++ more) → f.value = j.val →
    pres.value ≤ 1 → kind.value ≤ 1 → dist.value ≤ 2000000 → lim.value ≤ 3000 →
    ((head.value = 0 ∧ exts = []) ∨ (head.value = 1 ∧ ∃ e, exts = [e] ∧ e.value ≤ 1)) →
    after = s.regrouped j (decide (pres.value = 1)) (if kind.value = 1 then .relative else .anchor) →
    (∀ c i, refused c i ↔ exec (.screenPut n tag payload) s = .next
      (s.answered n 0x20 tag payload c i (words1 0 ++ words1 j.val))) →
    (s.web.lineState ≠ .setup → pres.value = 1 → s.line.xInsp ≤ dist.value → refused .range dist.index)
    ∧ ((s.web.lineState ≠ .setup → pres.value = 1 → (dist.value : Int) < s.line.xInsp) →
      (j = 0 → pres.value = 1 → kind.value = 1 → refused .range kind.index)
      ∧ (j = 0 → pres.value = 1 → kind.value = 0 → dist.value ≠ 0 → refused .range dist.index)
      ∧ (j = 0 → pres.value = 0 → (∃ k, k ≠ 0 ∧ (s.screen k).present = true) → refused .state head.index)
      ∧ (j ≠ 0 → pres.value = 1 → (s.screen 0).present = false → refused .state head.index)
      ∧ ((j = 0 → pres.value = 1 → kind.value = 0 ∧ dist.value = 0) →
          (j = 0 → pres.value = 0 → ∀ k, k ≠ 0 → (s.screen k).present = false) →
          (j ≠ 0 → pres.value = 1 → (s.screen 0).present = true) →
          ((∃ m, s.tests j m after ∧ s.engState m ≠ .absent ∧ s.engState m ≠ .parked ∧ s.engState m ≠ .faulted) →
            refused .state head.index)
          ∧ (j = 0 → s.web.lineState ≠ .setup → refused .state head.index)
          ∧ (s.web.lineState = .run →
              (∃ m, inSet s.planned m = true ∧ (anchorOf after m = none ∨ anchorOf after m ≠ anchorOf s.screens m)) →
              refused .state head.index)))

/-- SCREEN.PUT takes its records in turn: what a request does after its first record is accepted is what a request with
the records after it does, from the next screen, on the state that the first leaves, the ports apart. The code is the same,
one record more is applied, the write index is the same, and the word index names the same field, or the end. -/
def Obligations.ScreenPutTakesRecordsInTurn : Prop :=
  ∀ (s t u v : State) (n : PortId) (tag : Byte) (both first second : List Word) (f f1 g : Field)
    (a a1 b b2 : List Field) (j : ScreenId),
    s.hears n .line both → first.length ≤ 64 → second.length ≤ 64 →
    fields both = f :: (a ++ b) → fields first = f1 :: a1 → fields second = g :: b2 → b ≠ [] →
    a1.map Field.value = a.map Field.value → b2.map Field.value = b.map Field.value →
    f.value = j.val → f1.value = j.val → g.value = (j + 1).val →
    ((a.head?.map Field.value = some 0 ∧ a.length = 5) ∨ (a.head?.map Field.value = some 1 ∧ a.length = 6)) →
    exec (.screenPut n tag both) s = .next t → exec (.screenPut n tag first) s = .next u →
    (u.port n).held.status = .ok → exec (.screenPut n tag second) u = .next v →
    t = { v with ports := t.ports } ∧ (t.port n).held.status = (v.port n).held.status
    ∧ (∃ m w : Int, (v.port n).held.words = words1 m ++ words1 w ∧ (t.port n).held.words = words1 (m + 1) ++ words1 w)
    ∧ (((t.port n).held.status = .ok ∧ (t.port n).held.index = 0 ∧ (v.port n).held.index = 0)
      ∨ ((t.port n).held.index = both.length ∧ (v.port n).held.index = second.length)
      ∨ ∃ (i : Nat) (x y : Field), b[i]? = some x ∧ b2[i]? = some y
          ∧ (t.port n).held.index = x.index ∧ (v.port n).held.index = y.index)

/-- SCREEN.TUNE (R28): every record in range replaces the five tuning values of its screen, the write index rolling over
from 23 to 0, until the records end or one is refused; nothing else changes but the port. The first field out of range
is named, a record cut short and an empty record list are refused at the payload count, and the records before a refused
one stay applied. For a bad start index nothing is applied, and the word index is 0, also for a payload of ignored widen
words alone (assumption log 34); the write index answered is free (assumption log 11). -/
def Obligations.ScreenTuneReplacesTunings : Prop :=
  (∀ (s : State) (n : PortId) (tag : Byte) (payload : List Word) (f : Field) (j : ScreenId)
    (rs : List (Field × Field × Field × Field × Field)) (tail : List Field) (bounds : List (Nat × Nat))
    (code : Status) (index : Nat),
    s.hears n .line payload → f.value = j.val →
    fields payload = f :: (rs.flatMap (fun (l, w, g, d, p) => [l, w, g, d, p]) ++ tail) →
    bounds = [(2000, 50000), (1, 64), (0, 256), (0, 255), (1, 1000)] →
    (∀ r ∈ rs, allWithin bounds [r.1, r.2.1, r.2.2.1, r.2.2.2.1, r.2.2.2.2]) →
    ((tail = [] ∧ rs ≠ [] ∧ code = .ok ∧ index = 0)
      ∨ (tail = [] ∧ rs = [] ∧ code = .range ∧ index = payload.length)
      ∨ (tail ≠ [] ∧ tail.length < 5 ∧ allWithin bounds tail ∧ code = .range ∧ index = payload.length)
      ∨ (∃ x, firstOutOfRange bounds tail x ∧ code = .range ∧ index = x.index)) →
    exec (.screenTune n tag payload) s = .next
      ((rs.foldl (fun (uj : State × ScreenId) (r : Field × Field × Field × Field × Field) =>
          ({ uj.1 with screens := uj.1.screens.set uj.2 { uj.1.screen uj.2 with
              tuning := { lead := r.1.value, slew := r.2.1.value, gain := r.2.2.1.value,
                          deadband := r.2.2.2.1.value, stepLimit := r.2.2.2.2.value } } }, uj.2 + 1)) (s, j)).1.answered
        n 0x21 tag payload code index (words1 rs.length ++ words1 ((j.val + rs.length) % 24))))
  ∧ ∀ (s : State) (n : PortId) (tag : Byte) (payload : List Word), s.hears n .line payload →
    (fields payload = [] ∨ (∃ f rest, fields payload = f :: rest ∧ 24 ≤ f.value)) → ∃ w : Word,
      exec (.screenTune n tag payload) s = .next
        (({ s with freeIndex := s.freeIndex + 1 } : State).answered n 0x21 tag payload .range 0 (words1 0 ++ [w]))

/-- SCREEN.GET answers the values of its screen in the order of R30 and changes nothing but the port; for an ABSENT
screen the group words that the manual does not state are free (assumption log 10). The phase setpoint it answers for a
present screen is the one last formed (assumption log 18). A payload that is not one index is refused with RANGE. -/
def Obligations.ScreenGetReportsTheScreen : Prop :=
  (∀ (s : State) (n : PortId) (tag : Byte) (payload : List Word) (f : Field) (k : ScreenId) (x : Screen)
    (group : List Word → List Word),
    s.hearsAny payload → fields payload = [f] → f.value = k.val → x = s.screen k →
    group = (fun middle =>
      words1 k.val ++ words1 (if x.present then 1 else 0) ++ words1 x.kind.toCode ++ words2 x.dist ++ words1 x.limit
        ++ words1 (if x.ext then 1 else 0) ++ words1 x.tuning.lead ++ words1 x.tuning.slew ++ words1 x.tuning.gain
        ++ words1 x.tuning.deadband ++ words1 x.tuning.stepLimit ++ middle ++ words1 x.eng.state.toCode
        ++ words1 (causeCode x.eng.cause) ++ words1 (if inSet s.planned k then 1 else 0) ++ words2 x.eng.startSeq
        ++ words2 x.eng.stopSeq ++ words1 (if x.eng.window then 1 else 0) ++ words1 x.chan.target
        ++ words1 x.chan.applied ++ words1 (if x.present then effTrim s.screens k else 0) ++ words2 x.chan.r
        ++ words2 x.chan.lcur ++ words2 x.chan.gear ++ words2 x.chan.n
        ++ words1 (if x.present then x.chan.setpoint else 0) ++ words2 x.chan.lastCorrected ++ words1 x.miss
        ++ (match x.last with | some r => words1 r.state.toCode ++ [r.phase] | none => [0, 0])) →
    (∀ a, anchorOf s.screens k = some a →
      exec (.screenGet n tag payload) s = .next (s.answered n 0x22 tag payload .ok 0
        (group (words1 a.val ++ words1 (if (s.screen a).ext then 1 else 0)
          ++ words1 (if (s.screen a).aligned then 1 else 0)))))
    ∧ (anchorOf s.screens k = none → ∃ w1 w2 : Word,
      exec (.screenGet n tag payload) s = .next
        (({ s with freeIndex := s.freeIndex + 2 } : State).answered n 0x22 tag payload .ok 0
          (group [0xFFFF, w1, w2]))))
  ∧ Kind.screenGet.ChecksOneIndex

/-- STRETCH.SET (R34), whole: ROLE and RANGE; any value is accepted, staged within −2,048 … +2,048, and L_fab recomputed;
nothing else changes but the port. -/
def Obligations.StretchSetStagesClampedStretch : Prop :=
  (∀ (s : State) (n : PortId) (tag : Byte) (payload : List Word), s.hearsAny payload →
    ((s.port n).role ≠ .line → exec (.stretchSet n tag payload) s = .next (s.answered n 0x28 tag payload .role 0 []))
    ∧ ((s.port n).role = .line →
      (fields payload = [] →
        exec (.stretchSet n tag payload) s = .next (s.answered n 0x28 tag payload .range payload.length []))
      ∧ ∀ f g rest, fields payload = f :: g :: rest →
        exec (.stretchSet n tag payload) s = .next (s.answered n 0x28 tag payload .range g.index [])))
  ∧ ∀ (s : State) (n : PortId) (tag : Byte) (payload : List Word) (f : Field) (v lFab : Int),
    s.hears n .line payload → fields payload = [f] →
    (f.signed < -2048 → v = -2048) → (2048 < f.signed → v = 2048) →
    (-2048 ≤ f.signed → f.signed ≤ 2048 → v = f.signed) →
    lFab = s.line.lScr + (s.line.lScr * v + 32768) / 65536 →
    exec (.stretchSet n tag payload) s = .next
      (({ s with phase := { s.phase with stretch := v, lFab := lFab } } : State).answered n 0x28 tag payload .ok 0
        (words1 v ++ words1 (if v = f.signed then 0 else 1) ++ words2 lFab))

/-- GROUP.ALIGN accepted: every present screen of the group but screen 0 is placed on the segment that contains its
design coordinate, or on the key screen's grid, and the group's flag is set; nothing else changes but the port.
GROUP.ALIGN refused (R46): RANGE for a payload that is not one index, STATE for an index that is no present anchor or
whose group holds a screen neither PARKED nor FAULTED; it changes nothing but the port. -/
def Obligations.GroupAlignPlacesTheGroup : Prop :=
  (∀ (s : State) (n : PortId) (tag : Byte) (payload : List Word) (f : Field) (a : ScreenId),
    s.hears n .line payload → fields payload = [f] → f.value = a.val →
    (s.screen a).present = true → (s.screen a).kind = .anchor →
    (∀ k, anchorOf s.screens k = some a → s.engState k = .parked ∨ s.engState k = .faulted) →
    ∃ t : State, exec (.groupAlign n tag payload) s = .next t
      ∧ t = ({ s with screens := t.screens } : State).answered n 0x29 tag payload .ok 0 (t.port n).held.words
      ∧ (∀ k, t.screen k = { s.screen k with chan := (t.screen k).chan, aligned := (t.screen k).aligned }
          ∧ ((t.screen k).aligned = true ↔ k = a ∨ (s.screen k).aligned = true)
          ∧ (k = 0 ∨ anchorOf s.screens k ≠ some a → (t.screen k).chan = (s.screen k).chan)
          ∧ (k ≠ 0 → anchorOf s.screens k = some a →
              (∀ g, containing s.web.queue (s.design k) = some g →
                (t.screen k).chan = { (s.screen k).chan with
                  r := s.design k - g.start, lcur := g.length, gear := 4294967296 / g.length })
              ∧ (containing s.web.queue (s.design k) = none →
                (t.screen k).chan = { (s.screen k).chan with
                  r := (s.design k - s.pos.p + (s.screen 0).chan.r) % (s.screen 0).chan.lcur,
                  lcur := (s.screen 0).chan.lcur, gear := 4294967296 / (s.screen 0).chan.lcur })))
      ∧ ∃ placed : List ScreenId, placed = (List.finRange 24).filter
            (fun k => decide (k ≠ 0 ∧ anchorOf s.screens k = some a))
          ∧ (t.port n).held.words = words1 a.val ++ words1 placed.length ++ placed.flatMap fun k =>
              words1 k.val ++ words2 (((containing s.web.queue (s.design k)).map Segment.seq).getD 0)
                ++ words2 (t.screen k).chan.r ++ words2 (t.screen k).chan.lcur)
  ∧ Kind.groupAlign.ChecksOneIndex
  ∧ ∀ (s : State) (n : PortId) (tag : Byte) (payload : List Word) (f : Field) (a : ScreenId),
    s.hears n .line payload → fields payload = [f] → f.value = a.val →
    (¬ ((s.screen a).present = true ∧ (s.screen a).kind = .anchor)
      ∨ ∃ k, anchorOf s.screens k = some a ∧ s.engState k ≠ .parked ∧ s.engState k ≠ .faulted) →
    exec (.groupAlign n tag payload) s = .next (s.answered n 0x29 tag payload .state 0 [])

/-! ### Requests: engagement, faults, runs -/

/-- ENGAGE accepted (R55 to R58): the named screen and, for the anchor of a UNIFIED group, every relative of it: PARKED
arms, ENDING returns to PRINTING, a FAULTED relative is planned; nothing else changes but HOLD and the port. ENGAGE
refused: RANGE for a payload that is not one index, then the other checks of R55 in their order, each with its code; it
changes nothing but the port. -/
def Obligations.EngageArmsByTheTables : Prop :=
  (∀ (s : State) (n : PortId) (tag : Byte) (payload : List Word) (f : Field) (j : ScreenId) (named : ScreenId → Prop),
    s.hears n .line payload → fields payload = [f] → f.value = j.val → s.web.lineState = .run →
    (s.screen j).present = true →
    ¬ ((s.screen j).kind = .relative ∧ ∃ a, anchorOf s.screens j = some a ∧ (s.screen a).ext = true) →
    s.engState j ≠ .faulted →
    ((s.screen j).kind = .relative → s.engState j = .parked ∨ s.engState j = .ending →
      ∃ a, anchorOf s.screens j = some a ∧ inSet s.planned a = true) →
    (∀ k, named k ↔ k = j ∨ ((s.screen j).kind = .anchor ∧ (s.screen j).ext = true ∧ anchorOf s.screens k = some j)) →
    ((∃ k, named k ∧ s.engState k = .parked) → ∃ a, anchorOf s.screens j = some a ∧ (s.screen a).aligned = true) →
    ∃ t : State, exec (.engage n tag payload) s = .next t
      ∧ t = ({ s with screens := t.screens, planned := t.planned,
                      ring := { s.ring with hold := t.ring.hold } } : State).answered n 0x30 tag payload .ok 0
              (words1 (t.engState j).toCode ++ words2 (t.screen j).eng.startSeq ++ words2 (t.screen j).eng.stopSeq
                ++ words2 (screensWhere fun k => s.engState k != t.engState k).toNat ++ words2 t.planned.toNat)
      ∧ t.HoldFollows
      ∧ ∀ k, t.screen k = { s.screen k with eng := (t.screen k).eng }
        ∧ (¬ named k → (t.screen k).eng = (s.screen k).eng ∧ inSet t.planned k = inSet s.planned k)
        ∧ (named k → s.engState k = .parked →
            (t.screen k).eng = { state := .armed, cause := none, startSeq := s.web.nextSeq, stopSeq := 0,
                                 window := false } ∧ inSet t.planned k = true)
        ∧ (named k → s.engState k = .ending →
            (t.screen k).eng = { (s.screen k).eng with state := .printing, stopSeq := 0 }
            ∧ inSet t.planned k = true)
        ∧ (named k → s.engState k = .faulted →
            (t.screen k).eng = (s.screen k).eng ∧ inSet t.planned k = true)
        ∧ (named k → s.engState k = .armed ∨ s.engState k = .lowering ∨ s.engState k = .printing
              ∨ s.engState k = .absent →
            (t.screen k).eng = (s.screen k).eng ∧ inSet t.planned k = inSet s.planned k))
  ∧ Kind.engage.ChecksOneIndex
  ∧ ∀ (s : State) (n : PortId) (tag : Byte) (payload : List Word) (f : Field) (j : ScreenId) (named : ScreenId → Prop)
    (checks : List (Prop × Status)),
    s.hears n .line payload → fields payload = [f] → f.value = j.val →
    (∀ k, named k ↔ k = j ∨ ((s.screen j).kind = .anchor ∧ (s.screen j).ext = true ∧ anchorOf s.screens k = some j)) →
    checks = [(s.web.lineState = .run, .state), ((s.screen j).present = true, .state),
      (¬ ((s.screen j).kind = .relative ∧ ∃ a, anchorOf s.screens j = some a ∧ (s.screen a).ext = true), .grouped),
      (s.engState j ≠ .faulted, .state),
      ((s.screen j).kind = .relative → s.engState j = .parked ∨ s.engState j = .ending →
        ∃ a, anchorOf s.screens j = some a ∧ inSet s.planned a = true, .state),
      ((∃ k, named k ∧ s.engState k = .parked) → ∃ a, anchorOf s.screens j = some a ∧ (s.screen a).aligned = true,
        .state)] →
    ∀ (i : Nat) (check : Prop × Status), checks[i]? = some check → (∀ c ∈ checks.take i, c.1) → ¬ check.1 →
      exec (.engage n tag payload) s = .next (s.answered n 0x30 tag payload check.2 0 [])

/-- LIFT accepted (R64, R65): the named screen and, for an anchor, its planned relatives: ARMED and LOWERING return to
PARKED, PRINTING ends at the next seq, and each leaves the planned set; nothing else changes but HOLD and the port. LIFT
refused: RANGE for a payload that is not one index, GROUPED for a relative of a UNIFIED group; it changes nothing but the
port. -/
def Obligations.LiftLowersByTheTable : Prop :=
  (∀ (s : State) (n : PortId) (tag : Byte) (payload : List Word) (f : Field) (j : ScreenId) (named : ScreenId → Prop),
    s.hears n .line payload → fields payload = [f] → f.value = j.val →
    ¬ ((s.screen j).kind = .relative ∧ ∃ a, anchorOf s.screens j = some a ∧ (s.screen a).ext = true) →
    (∀ k, named k ↔ k = j ∨ ((s.screen j).present = true ∧ (s.screen j).kind = .anchor
      ∧ anchorOf s.screens k = some j ∧ inSet s.planned k = true)) →
    ∃ t : State, exec (.lift n tag payload) s = .next t
      ∧ t = ({ s with screens := t.screens, planned := t.planned,
                      ring := { s.ring with hold := t.ring.hold } } : State).answered n 0x31 tag payload .ok 0
              (words1 (t.engState j).toCode ++ words2 (t.screen j).eng.stopSeq
                ++ words2 (screensWhere fun k => s.engState k != t.engState k).toNat
                ++ words2 (screensWhere fun k => inSet s.planned k && !inSet t.planned k).toNat ++ words2 t.planned.toNat)
      ∧ t.HoldFollows
      ∧ ∀ k, t.screen k = { s.screen k with eng := (t.screen k).eng }
        ∧ (¬ named k → (t.screen k).eng = (s.screen k).eng ∧ inSet t.planned k = inSet s.planned k)
        ∧ (named k → inSet t.planned k = false)
        ∧ (named k → s.engState k = .armed →
            (t.screen k).eng = { (s.screen k).eng with state := .parked, window := false })
        ∧ (named k → s.engState k = .lowering → (t.screen k).eng = { (s.screen k).eng with state := .parked })
        ∧ (named k → s.engState k = .printing →
            (t.screen k).eng = { (s.screen k).eng with state := .ending, stopSeq := s.web.nextSeq })
        ∧ (named k → s.engState k = .parked ∨ s.engState k = .ending ∨ s.engState k = .faulted
              ∨ s.engState k = .absent → (t.screen k).eng = (s.screen k).eng))
  ∧ Kind.lift.ChecksOneIndex
  ∧ ∀ (s : State) (n : PortId) (tag : Byte) (payload : List Word) (f : Field) (j a : ScreenId),
    s.hears n .line payload → fields payload = [f] → f.value = j.val →
    (s.screen j).kind = .relative → anchorOf s.screens j = some a → (s.screen a).ext = true →
    exec (.lift n tag payload) s = .next (s.answered n 0x31 tag payload .grouped 0 [])

/-- FAULT.TAKE (R81) and REPORT.TAKE (R159): ROLE and RANGE; otherwise they remove the oldest entry and answer it with the
number left, or answer EMPTY; nothing else changes but the attention lines and the port. The widths of a roll report's
segment count and of a repeat count are read from the rule of R174 (assumption log 19). -/
def Obligations.TakesRemoveTheOldest : Prop :=
  (∀ (s : State) (n : PortId) (tag : Byte) (payload : List Word), s.hearsAny payload →
    ((s.port n).role ≠ .line →
      exec (.faultTake n tag payload) s = .next (s.answered n 0x38 tag payload .role 0 [])
      ∧ exec (.reportTake n tag payload) s = .next (s.answered n 0x70 tag payload .role 0 []))
    ∧ ((s.port n).role = .line → ∀ f rest, fields payload = f :: rest →
      exec (.faultTake n tag payload) s = .next (s.answered n 0x38 tag payload .range f.index [])
      ∧ exec (.reportTake n tag payload) s = .next (s.answered n 0x70 tag payload .range f.index [])))
  ∧ (∀ (s : State) (n : PortId) (tag : Byte) (payload : List Word) (e : FaultEntry) (rest : List FaultEntry),
    s.hears n .line payload → fields payload = [] →
    (s.ring.faults = [] → exec (.faultTake n tag payload) s = .next (s.answered n 0x38 tag payload .empty 0 []))
    ∧ (s.ring.faults = e :: rest →
        exec (.faultTake n tag payload) s = .next
          (({ s with ring := { s.ring with faults := rest } } : State).answered n 0x38 tag payload .ok 0
            (words1 e.screen.val ++ words1 e.cause.toCode ++ words2 e.seq ++ words3 e.p ++ words1 e.repeats
              ++ words1 rest.length)).evalLines))
  ∧ ∀ (s : State) (n : PortId) (tag : Byte) (payload : List Word) (rest : List Report),
    s.hears n .line payload → fields payload = [] →
    (s.reports = [] → exec (.reportTake n tag payload) s = .next (s.answered n 0x70 tag payload .empty 0 []))
    ∧ (∀ r : SegmentReport, s.reports = .segment r :: rest →
        exec (.reportTake n tag payload) s = .next
          (({ s with reports := rest } : State).answered n 0x70 tag payload .ok 0
            (words1 0 ++ (words2 r.seq ++ words1 r.roll ++ words1 r.wayOut.toCode ++ words1 r.grade.toCode
              ++ words1 r.faults.toNat ++ words3 r.start ++ words2 r.length ++ words2 r.dose ++ words1 r.peak
              ++ words2 r.expected.toNat ++ words2 r.printed.toNat ++ words2 r.outOfTol.toNat
              ++ words1 r.largestError) ++ words1 rest.length)).evalLines)
    ∧ (∀ r : RollReport, s.reports = .roll r :: rest →
        exec (.reportTake n tag payload) s = .next
          (({ s with reports := rest } : State).answered n 0x70 tag payload .ok 0
            (words1 1 ++ (words1 r.id ++ words1 r.reason.toCode
              ++ (match r.seamAt with | none => [0xFFFF, 0xFFFF, 0xFFFF] | some c => words3 c)
              ++ words2 (r.firstSeq.getD 0) ++ words2 (r.lastSeq.getD 0) ++ words2 r.segments
              ++ r.tally.counts.flatMap (fun c => words2 c) ++ words3 r.totalLength)
              ++ words1 rest.length)).evalLines)

/-- SCREEN.CLEAR accepted (R82, R83): a planned screen in RUN arms for the next seq, any other parks; nothing else
changes but HOLD and the port. SCREEN.CLEAR refused (R82): RANGE for a payload that is not one index, and STATE by each
of its other checks; it changes nothing but the port. -/
def Obligations.ScreenClearReturnsFaultedScreen : Prop :=
  (∀ (s : State) (n : PortId) (tag : Byte) (payload : List Word) (f : Field) (k : ScreenId) (e : Engagement)
    (planned : Bool),
    s.hears n .line payload → fields payload = [f] → f.value = k.val → s.engState k = .faulted →
    (s.screen k).last.map DriveReply.state ≠ some .fault → (s.screen k).last ≠ none →
    planned = inSet s.planned k →
    (planned = true → s.web.lineState = .run →
      ∃ a, anchorOf s.screens k = some a ∧ (s.screen a).aligned = true) →
    (planned = true ∧ s.web.lineState = .run →
      e = { state := .armed, cause := none, startSeq := s.web.nextSeq, stopSeq := 0, window := false }) →
    (¬ (planned = true ∧ s.web.lineState = .run) →
      e = { state := .parked, cause := none, startSeq := 0, stopSeq := 0, window := false }) →
    ∃ hold : Bool, exec (.screenClear n tag payload) s = .next
        (({ s with screens := s.screens.set k { s.screen k with eng := e },
                   ring := { s.ring with hold := hold } } : State).answered n 0x39 tag payload .ok 0
          (words1 e.state.toCode ++ words2 e.startSeq ++ words1 (if planned then 1 else 0)))
      ∧ (hold = true ↔ s.ring.state = .lost ∨ (s.line.holdOnFault = true
          ∧ ∃ m, m ≠ k ∧ inSet s.planned m = true ∧ s.engState m = .faulted)))
  ∧ Kind.screenClear.ChecksOneIndex
  ∧ ∀ (s : State) (n : PortId) (tag : Byte) (payload : List Word) (f : Field) (k : ScreenId),
    s.hears n .line payload → fields payload = [f] → f.value = k.val →
    (s.engState k ≠ .faulted ∨ (s.screen k).last = none ∨ (s.screen k).last.map DriveReply.state = some .fault
      ∨ (inSet s.planned k = true ∧ s.web.lineState = .run
          ∧ ¬ ∃ a, anchorOf s.screens k = some a ∧ (s.screen a).aligned = true)) →
    exec (.screenClear n tag payload) s = .next (s.answered n 0x39 tag payload .state 0 [])

/-- RUN.BEGIN (R89, R90, with the geometry checks of R13 as its last three): ROLE and RANGE, the checks in order with
their reason codes, and what an accepted one sets; a refused one changes no state but the port's. -/
def Obligations.RunBeginChecksThenOpensTheRun : Prop :=
  ∀ (s : State) (n : PortId) (tag : Byte) (payload : List Word) (checks : List Prop), s.hearsAny payload →
    checks = [s.web.lineState = .setup, (s.screen 0).present = true, s.oven.zones ≠ [],
      ∀ k, s.engState k = .absent ∨ s.engState k = .parked ∨ s.engState k = .faulted, s.line.xInsp ≠ 0,
      ∀ k, (s.screen k).present = true → (s.screen k).dist < s.line.xInsp, s.line.xInsp ≤ s.oven.b0] →
    ((s.port n).role ≠ .line → exec (.runBegin n tag payload) s = .next (s.answered n 0x40 tag payload .role 0 []))
    ∧ ((s.port n).role = .line →
      (∀ f rest, fields payload = f :: rest →
        exec (.runBegin n tag payload) s = .next (s.answered n 0x40 tag payload .range f.index []))
      ∧ (fields payload = [] →
        (∀ i : Fin 7, (∀ p ∈ checks.take i.val, p) → (∀ p ∈ checks[i.val]?, ¬ p) →
          exec (.runBegin n tag payload) s = .next (s.answered n 0x40 tag payload .state 0 (words1 (i.val + 1))))
        ∧ ((∀ p ∈ checks, p) →
          exec (.runBegin n tag payload) s = .next
            (({ s with
                phase := { s.phase with highWater := (s.screen 0).chan.n },
                web := { s.web with
                  lineState := .run, lastSeam := none,
                  nextRollId := if s.web.nextRollId = 65535 then 1 else s.web.nextRollId + 1,
                  rolls := s.web.rolls ++
                    [{ id := s.web.nextRollId, seamAt := none, firstSeq := none, lastSeq := none, left := 0,
                       tally := ⟨0, 0, 0, 0, 0, 0, 0, 0, 0⟩, totalLength := 0 }] } } : State).answered
              n 0x40 tag payload .ok 0 (words1 s.web.nextRollId ++ words2 s.web.nextSeq ++ words3 s.pos.p)))))

/-- RUN.DRAIN accepted (R67, R91, R92): every planned screen is lifted and nothing stays planned; with records queued
the line is in DRAIN with its queue, rolls and reports as they were; with none the drain completes at once. RUN.DRAIN
refused (R91): RANGE for a field, STATE outside RUN; it changes nothing but the port. -/
def Obligations.RunDrainLiftsAndDrains : Prop :=
  (∀ (s : State) (n : PortId) (tag : Byte) (payload : List Word),
    s.hears n .line payload → fields payload = [] → s.web.lineState = .run →
    ∃ t : State, exec (.runDrain n tag payload) s = .next t
      ∧ t = { s with screens := t.screens, planned := 0, ring := { s.ring with hold := t.ring.hold },
                     web := { s.web with lineState := t.web.lineState, rolls := t.web.rolls }, reports := t.reports,
                     ports := t.ports }
      ∧ t.HoldFollows
      ∧ (t.port n).held =
        { kind := 0x41, tag := tag, status := .ok, index := 0,
          words := words1 (if s.web.queue = [] then 0 else 2) ++ words1 s.web.queue.length ++ words2 s.web.nextSeq }
      ∧ (∀ m, (m ≠ n → (t.port m).sameSerial (s.port m)) ∧ (t.port m).enabled = (s.port m).enabled)
      ∧ (s.web.queue ≠ [] → t.web.lineState = .drain ∧ t.web.rolls = s.web.rolls ∧ t.reports = s.reports
          ∧ ∀ m, (t.port m).latched = (s.port m).latched)
      ∧ (s.web.queue = [] → t.web.lineState = .setup ∧ t.web.rolls = []
          ∧ t.reports = (s.reports ++ s.web.rolls.map fun r => Report.roll (rollReport .drain r)).take
              (max 32 s.reports.length)
          ∧ ∀ m, (s.port m).role.sees .drainDone → hasKind (t.port m).latched .drainDone)
      ∧ ∀ k, t.screen k = { s.screen k with eng := (t.screen k).eng }
        ∧ (inSet s.planned k = false → (t.screen k).eng = (s.screen k).eng)
        ∧ (inSet s.planned k = true →
            (s.engState k = .armed →
              (t.screen k).eng = { (s.screen k).eng with state := .parked, window := false })
            ∧ (s.engState k = .lowering → (t.screen k).eng = { (s.screen k).eng with state := .parked })
            ∧ (s.engState k = .printing →
              (t.screen k).eng = { (s.screen k).eng with state := .ending, stopSeq := s.web.nextSeq })
            ∧ (s.engState k = .parked ∨ s.engState k = .ending ∨ s.engState k = .faulted ∨ s.engState k = .absent →
              (t.screen k).eng = (s.screen k).eng)))
  ∧ ∀ (s : State) (n : PortId) (tag : Byte) (payload : List Word), s.hears n .line payload →
    (∀ f rest, fields payload = f :: rest →
      exec (.runDrain n tag payload) s = .next (s.answered n 0x41 tag payload .range f.index []))
    ∧ (fields payload = [] → s.web.lineState ≠ .run →
      exec (.runDrain n tag payload) s = .next (s.answered n 0x41 tag payload .state 0 []))

/-- RUN.ABORT accepted (R68, R93): the queue and the roll table empty into reports, LOST records first, as far as the
exit report queue has room, and the roll reports count the LOST records; the screens go down and nothing stays planned; the
seqs and ids are kept. RUN.ABORT refused (R93): RANGE for a field, STATE in SETUP; it changes nothing but the port. Which
of the two a field in SETUP gives is left open here (the model's choice, assumption log 32). -/
def Obligations.RunAbortEmptiesTheLine : Prop :=
  (∀ (s : State) (n : PortId) (tag : Byte) (payload : List Word),
    s.hears n .line payload → fields payload = [] → s.web.lineState ≠ .setup →
    ∃ t : State, exec (.runAbort n tag payload) s = .next t
      ∧ t = { s with screens := t.screens, planned := 0, ring := { s.ring with hold := t.ring.hold },
                     web := { s.web with lineState := .setup, queue := [], rolls := [] }, reports := t.reports,
                     ports := t.ports }
      ∧ t.HoldFollows
      ∧ (t.port n).held =
        { kind := 0x42, tag := tag, status := .ok, index := 0,
          words := words1 s.web.queue.length ++ words1 s.web.rolls.length }
      ∧ (∀ m, (m ≠ n → (t.port m).sameSerial (s.port m)) ∧ (t.port m).enabled = (s.port m).enabled)
      ∧ (∀ (lost : Roll → List Segment) (closed : List RollReport),
          (∀ r, lost r = s.web.queue.filter fun g => g.roll == r.id) →
          closed = s.web.rolls.map (fun r =>
            { id := r.id, reason := .abort, seamAt := r.seamAt, firstSeq := r.firstSeq, lastSeq := r.lastSeq,
              segments := r.tally.sum + (lost r).length
              tally := { r.tally with lost := r.tally.lost + (lost r).length }
              totalLength := if lost r = [] then r.totalLength
                else min 281474976710655 (r.totalLength + ((lost r).map fun g => g.length.toNat).sum) }) →
          t.reports = (s.reports ++ (s.web.queue.map fun g =>
                Report.segment (segmentReport .aborted [.lost] g)) ++ closed.map Report.roll).take
              (max 32 s.reports.length))
      ∧ (∀ m e, hasKind (t.port m).latched e ↔ hasKind (s.port m).latched e
          ∨ ((s.port m).role.sees e ∧ ((e = .rollClosed ∧ s.web.rolls ≠ [])
              ∨ (e = .reportLost ∧ s.reports.length < s.reports.length + s.web.queue.length + s.web.rolls.length
                  ∧ 32 < s.reports.length + s.web.queue.length + s.web.rolls.length))))
      ∧ ∀ k, t.screen k = { s.screen k with eng := (t.screen k).eng }
        ∧ (s.engState k = .absent ∨ s.engState k = .parked ∨ s.engState k = .faulted →
            (t.screen k).eng = (s.screen k).eng)
        ∧ (s.engState k = .armed ∨ s.engState k = .lowering ∨ s.engState k = .printing ∨ s.engState k = .ending →
            (t.screen k).eng = { (s.screen k).eng with
              state := .parked, window := false, startSeq := 0, stopSeq := 0 }))
  ∧ ∀ (s : State) (n : PortId) (tag : Byte) (payload : List Word), s.hears n .line payload →
    (∀ f rest, fields payload = f :: rest →
      (s.web.lineState ≠ .setup →
        exec (.runAbort n tag payload) s = .next (s.answered n 0x42 tag payload .range f.index []))
      ∧ (s.web.lineState = .setup →
        exec (.runAbort n tag payload) s = .next (s.answered n 0x42 tag payload .range f.index [])
        ∨ exec (.runAbort n tag payload) s = .next (s.answered n 0x42 tag payload .state 0 [])))
    ∧ (fields payload = [] → s.web.lineState = .setup →
      exec (.runAbort n tag payload) s = .next (s.answered n 0x42 tag payload .state 0 []))

/-- SEGMENT.GET (R108) and WEB.WHERE (R109), whole: RANGE, a seq or a selector out of range being named before a later
extra field (assumption log 14); otherwise they answer from the queue and change nothing but the port: GONE for a seq and
EMPTY for a position that no queued record has. -/
def Obligations.WebReadsReportQueuedRecords : Prop :=
  (∀ (s : State) (n : PortId) (tag : Byte) (payload : List Word), s.hearsAny payload →
    (fields payload = [] →
      exec (.segmentGet n tag payload) s = .next (s.answered n 0x43 tag payload .range payload.length [])
      ∧ exec (.webWhere n tag payload) s = .next (s.answered n 0x44 tag payload .range payload.length []))
    ∧ (∀ f rest, fields payload = f :: rest → f.value = 0 ∨ 4294967295 < f.value →
      exec (.segmentGet n tag payload) s = .next (s.answered n 0x43 tag payload .range f.index []))
    ∧ (∀ f g rest, fields payload = f :: g :: rest →
      (1 ≤ f.value → f.value ≤ 4294967295 → 1 < g.value →
        exec (.segmentGet n tag payload) s = .next (s.answered n 0x43 tag payload .range g.index []))
      ∧ exec (.webWhere n tag payload) s = .next (s.answered n 0x44 tag payload .range g.index []))
    ∧ ∀ f g h rest, fields payload = f :: g :: h :: rest → 1 ≤ f.value → f.value ≤ 4294967295 → g.value ≤ 1 →
      exec (.segmentGet n tag payload) s = .next (s.answered n 0x43 tag payload .range h.index []))
  ∧ (∀ (s : State) (n : PortId) (tag : Byte) (payload : List Word) (f : Field) (parts : List Field) (g : Segment)
      (stage : Nat),
    s.hearsAny payload → fields payload = f :: parts → 1 ≤ f.value → f.value ≤ 4294967295 →
    (parts = [] ∨ ∃ p, parts = [p] ∧ p.value ≤ 1) →
    stage = (if s.pos.p - g.start < s.line.xInsp then 0 else if s.pos.p - g.start ≤ s.oven.b0 then 1 else 2) →
    ((∀ q ∈ s.web.queue, q.seq ≠ f.value) →
      exec (.segmentGet n tag payload) s = .next (s.answered n 0x43 tag payload .gone 0 []))
    ∧ (s.web.queue.find? (fun q => q.seq == f.value) = some g →
      ((parts.head?.map Field.value).getD 0 = 0 →
        exec (.segmentGet n tag payload) s = .next (s.answered n 0x43 tag payload .ok 0
          (words2 g.seq ++ words1 g.roll ++ words3 g.start ++ words2 g.length ++ words1 g.stretch
            ++ words2 g.expected.toNat ++ words2 g.printed.toNat ++ words1 (if g.camera then 1 else 0)
            ++ words1 (if g.seam then 1 else 0) ++ words1 (if g.cureUnknown then 1 else 0) ++ words2 g.dose
            ++ words1 g.peak ++ words1 stage ++ words3 (s.pos.p - g.start) ++ words3 s.pos.p
            ++ words1 g.regs.length)))
      ∧ ((parts.head?.map Field.value).getD 0 = 1 →
        exec (.segmentGet n tag payload) s = .next (s.answered n 0x43 tag payload .ok 0
          (words2 g.seq ++ words1 g.regs.length ++ g.regs.flatMap fun e =>
            words1 e.screen.val ++ words1 e.error ++ words1 (if e.outOfTol then 1 else 0))))))
  ∧ ∀ (s : State) (n : PortId) (tag : Byte) (payload : List Word) (f : Field) (g : Segment) (c : Int) (stage : Nat),
    s.hearsAny payload → fields payload = [f] → c = s.pos.p - f.signed - 1 →
    stage = (if s.pos.p - g.start < s.line.xInsp then 0 else if s.pos.p - g.start ≤ s.oven.b0 then 1 else 2) →
    ((∀ q ∈ s.web.queue, ¬ (q.start ≤ c ∧ c < q.start + q.length)) →
      exec (.webWhere n tag payload) s = .next (s.answered n 0x44 tag payload .empty 0 []))
    ∧ (containing s.web.queue c = some g →
      exec (.webWhere n tag payload) s = .next (s.answered n 0x44 tag payload .ok 0
        (words2 g.seq ++ words1 g.roll ++ words1 stage ++ words2 (c - g.start) ++ words2 g.length
          ++ words3 s.pos.p)))


/-! ### Requests: register, oven, reports, status, attention -/

/-- REG.REPORT: the checks of R113 and R114 in their order, each with its code and word index; a refused report changes
nothing but the port. A queued segment short of the camera is answered EARLY, also where it is the first of a run, of which
R128 says GONE (assumption log 33). -/
def Obligations.RegReportChecksInOrder : Prop :=
  (∀ (s : State) (n : PortId) (tag : Byte) (payload : List Word), s.hears n .inspect payload →
    ((fields payload).length < 3 →
      exec (.regReport n tag payload) s = .next (s.answered n 0x50 tag payload .range payload.length []))
    ∧ (∀ x, (fields payload)[3]? = some x →
      exec (.regReport n tag payload) s = .next (s.answered n 0x50 tag payload .range x.index []))
    ∧ (∀ f g h, fields payload = [f, g, h] →
      (f.value = 0 ∨ 4294967295 < f.value →
        exec (.regReport n tag payload) s = .next (s.answered n 0x50 tag payload .range f.index []))
      ∧ (1 ≤ f.value → f.value ≤ 4294967295 → 24 ≤ g.value →
        exec (.regReport n tag payload) s = .next (s.answered n 0x50 tag payload .range g.index []))))
  ∧ ∀ (s : State) (n : PortId) (tag : Byte) (payload : List Word) (f g h : Field) (k : ScreenId),
    s.hears n .inspect payload → fields payload = [f, g, h] → 1 ≤ f.value → f.value ≤ 4294967295 → g.value = k.val →
    ((∀ q ∈ s.web.queue, q.seq ≠ f.value) →
      exec (.regReport n tag payload) s = .next (s.answered n 0x50 tag payload .gone 0 []))
    ∧ ∀ q, s.web.queue.find? (fun q => q.seq == f.value) = some q →
      (q.camera = false → exec (.regReport n tag payload) s = .next (s.answered n 0x50 tag payload .early 0 []))
      ∧ (q.camera = true →
        (k = 0 → exec (.regReport n tag payload) s = .next (s.answered n 0x50 tag payload .reference 0 []))
        ∧ (k ≠ 0 →
          (inSet q.printed k = false →
            exec (.regReport n tag payload) s = .next (s.answered n 0x50 tag payload .unprinted 0 []))
          ∧ (inSet q.printed k = true →
            ((s.screen k).present = false →
              exec (.regReport n tag payload) s = .next (s.answered n 0x50 tag payload .range g.index []))
            ∧ ((s.screen k).present = true →
              ∃ t, exec (.regReport n tag payload) s = .next t ∧ (t.port n).held.status = .ok))))

/-- REG.REPORT accepted: the stored error and its entry in the register list, the outcome, the correction and the trim
target, TRIM_AT_LIMIT, the reply, and nothing else but the port and the attention lines. -/
def Obligations.RegReportStoresAndCorrects : Prop :=
  ∀ (s a : State) (n : PortId) (tag : Byte) (payload : List Word) (f g h : Field) (k : ScreenId) (q : Segment)
    (x : Screen) (e c target : Int) (outcome last : Nat) (out : Bool),
    s.hears n .inspect payload → fields payload = [f, g, h] → 1 ≤ f.value → f.value ≤ 4294967295 → g.value = k.val →
    s.web.queue.find? (fun q => q.seq == f.value) = some q → q.camera = true → k ≠ 0 → inSet q.printed k = true →
    x = s.screen k → x.present = true →
    (∀ y ∈ s.web.queue, (y.regs.map RegEntry.screen).Pairwise (· < ·)) →
    (h.signed < -32000 → e = -32000) → (32000 < h.signed → e = 32000) →
    (-32000 ≤ h.signed → h.signed ≤ 32000 → e = h.signed) →
    (out = true ↔ s.line.tolerance < e.natAbs) →
    (f.value ≤ x.chan.lastCorrected →
      outcome = 0 ∧ c = 0 ∧ target = x.chan.target ∧ last = x.chan.lastCorrected) →
    (x.chan.lastCorrected < f.value → (e.natAbs : Int) ≤ x.tuning.deadband →
      outcome = 1 ∧ c = 0 ∧ target = x.chan.target ∧ last = f.value) →
    (x.chan.lastCorrected < f.value → x.tuning.deadband < e.natAbs →
      outcome = 2 ∧ c = max (-x.tuning.stepLimit) (min x.tuning.stepLimit ((e * x.tuning.gain + 128) / 256))
      ∧ target = max (-x.limit) (min x.limit (x.chan.target - c)) ∧ last = f.value) →
    a = ({ s with
        screens := s.screens.set k { x with chan := { x.chan with target := target, lastCorrected := last } },
        web := { s.web with queue := s.web.queue.map fun y =>
          if y.seq = f.value then
            { y with regs := y.regs.filter (fun r => decide (r.screen < k)) ++
                { screen := k, error := e, outOfTol := out } :: y.regs.filter (fun r => decide (k < r.screen)) }
          else y } } : State).answered n 0x50 tag payload .ok 0
      (words2 f.value ++ words1 k.val ++ words1 e ++ words1 (if e = h.signed then 0 else 1)
        ++ words1 (if out then 1 else 0) ++ words1 (if q.regs.any fun r => r.screen == k then 1 else 0)
        ++ words1 outcome ++ words1 c ++ words1 (if outcome = 2 ∧ target ≠ x.chan.target - c then 1 else 0)
        ++ words1 target ++ words2 last) →
    ∃ t : State, exec (.regReport n tag payload) s = .next t
      ∧ t = { a with ports := t.ports } ∧ t.LinesFollow
      ∧ ∀ m, t.port m = { a.port m with latched := (t.port m).latched, line := (t.port m).line }
        ∧ ∀ v, hasKind (t.port m).latched v ↔ hasKind (s.port m).latched v
            ∨ (v = .trimAtLimit ∧ (s.port m).role.sees v ∧ outcome = 2 ∧ target ≠ x.chan.target - c)

/-- ZONE.PUT and CURE.PUT accepted: the whole zone table with unsampled zones, the four settings of the cure profile, and
nothing else but the port; a dose minimum above the dose maximum is refused naming it. Then the other refusals of ZONE.PUT
(R130) and of CURE.PUT (R135), in the order of their checks; a refused one changes nothing but the port. -/
def Obligations.OvenPutsReplaceTableAndProfile : Prop :=
  ((∀ (s : State) (n : PortId) (tag : Byte) (payload : List Word) (count b0 : Field) (bounds weights : List Field),
    s.hears n .line payload → s.web.lineState = .setup → fields payload = count :: b0 :: (bounds ++ weights) →
    bounds.length = count.value → weights.length = count.value → 1 ≤ count.value → count.value ≤ 8 →
    (∀ b ∈ b0 :: bounds, b.value ≤ 12000000) →
    (∀ (i : Nat) (low high : Field), (b0 :: bounds)[i]? = some low → (b0 :: bounds)[i + 1]? = some high →
      low.value + 220000 ≤ high.value) →
    (∀ w ∈ weights, w.value ≤ 255) →
    exec (.zonePut n tag payload) s = .next
      (({ s with oven :=
          { b0 := b0.value,
            zones := (bounds.zip weights).map fun bw =>
              { zEnd := bw.1.value, weight := bw.2.value, temp := 0, age := 255, freshness := .dead } } } : State).answered
        n 0x60 tag payload .ok 0
        (words1 count.value ++ words2 b0.value ++ words2 (((bounds.getLast?).map Field.value).getD 0))))
  ∧ ∀ (s : State) (n : PortId) (tag : Byte) (payload : List Word) (b t l h : Field),
    s.hearsAny payload → (s.port n).role = .line ∨ (s.port n).role = .oven → fields payload = [b, t, l, h] →
    b.value ≤ 3000 → t.value ≤ 4000 → l.value ≤ 4294967295 → h.value ≤ 4294967295 →
    (l.value ≤ h.value →
      exec (.curePut n tag payload) s = .next
        (({ s with cure := { tBase := b.value, tScorch := t.value, doseMin := l.value, doseMax := h.value } } :
            State).answered n 0x61 tag payload .ok 0
          (words1 b.value ++ words1 t.value ++ words2 l.value ++ words2 h.value)))
    ∧ (h.value < l.value →
      exec (.curePut n tag payload) s = .next (s.answered n 0x61 tag payload .range l.index [])))
  ∧ (∀ (s : State) (n : PortId) (tag : Byte) (payload : List Word) (refused : Status → Nat → Prop),
    s.hears n .line payload →
    (∀ c i, refused c i ↔ exec (.zonePut n tag payload) s = .next (s.answered n 0x60 tag payload c i [])) →
    (s.web.lineState ≠ .setup → refused .state 0)
    ∧ (s.web.lineState = .setup →
      (fields payload = [] → refused .range payload.length)
      ∧ (∀ count rest, fields payload = count :: rest → count.value = 0 ∨ 8 < count.value → refused .range count.index)
      ∧ (∀ count rest, fields payload = count :: rest → 1 ≤ count.value → count.value ≤ 8 →
        (rest.length < 2 * count.value + 1 → refused .range payload.length)
        ∧ (∀ x, rest[2 * count.value + 1]? = some x → refused .range x.index))
      ∧ ∀ (count b0 : Field) (bounds weights : List Field), fields payload = count :: b0 :: (bounds ++ weights) →
        1 ≤ count.value → count.value ≤ 8 → bounds.length = count.value → weights.length = count.value →
        ∀ wide : Nat → Prop,
        (∀ i, wide i ↔ ∃ low high, (b0 :: bounds)[i]? = some low ∧ (b0 :: bounds)[i + 1]? = some high
          ∧ high.value ≤ 12000000 ∧ low.value + 220000 ≤ high.value) →
        (12000000 < b0.value → refused .range b0.index)
        ∧ (b0.value ≤ 12000000 →
          (∀ (i : Nat) (x : Field), bounds[i]? = some x → (∀ i', i' < i → wide i') → ¬ wide i → refused .range x.index)
          ∧ ((∀ i, i < bounds.length → wide i) → ∀ x,
              firstOutOfRange (List.replicate count.value (0, 255)) weights x → refused .range x.index))))
  ∧ ∀ (s : State) (n : PortId) (tag : Byte) (payload : List Word) (refused : Nat → Prop),
    s.hearsAny payload → (s.port n).role = .line ∨ (s.port n).role = .oven →
    (∀ i, refused i ↔ exec (.curePut n tag payload) s = .next (s.answered n 0x61 tag payload .range i [])) →
    ((fields payload).length < 4 → refused payload.length)
    ∧ (∀ x, (fields payload)[4]? = some x → refused x.index)
    ∧ ((fields payload).length = 4 → ∀ x,
      firstOutOfRange [(0, 3000), (0, 4000), (0, 4294967295), (0, 4294967295)] (fields payload) x → refused x.index)

/-- ZONE.SAMPLE accepted: each field word's 15 bits act on their zone, 32,767 keeping it, 32,766 taking it to DEAD and
any other being its temperature, up to 4,000; nothing else changes but ZONE_DEAD, the lines and the port. ZONE.SAMPLE
refused (R133): STATE with no zone, too few fields, and naming the field word of the one beyond the last zone, whose
widen words are ignored; it changes nothing but the port. -/
def Obligations.ZoneSampleActsZoneByZone : Prop :=
  (∀ (s a : State) (n : PortId) (tag : Byte) (payload : List Word) (act : Nat → Zone → Zone)
    (pairs : List (Nat × Zone)),
    s.hears n .oven payload → s.oven.zones ≠ [] → (fields payload).length = s.oven.zones.length →
    (∀ z, act 32767 z = z) → (∀ z, act 32766 z = { z with freshness := .dead, age := 255 }) →
    (∀ v z, v < 32766 → act v z = { z with temp := min 4000 v, age := 0, freshness := .fresh }) →
    pairs = ((fields payload).map fun f => f.value % 32768).zip s.oven.zones →
    a = ({ s with oven := { s.oven with zones := pairs.map fun vz => act vz.1 vz.2 } } : State).answered
      n 0x62 tag payload .ok 0 (words1 s.oven.zones.length ++ pairs.flatMap fun vz =>
        words1 (act vz.1 vz.2).freshness.toCode ++ words1 (act vz.1 vz.2).temp
          ++ words1 (if 4000 < vz.1 ∧ vz.1 < 32766 then 1 else 0)) →
    ∃ t : State, exec (.zoneSample n tag payload) s = .next t
      ∧ t = { a with ports := t.ports } ∧ t.LinesFollow
      ∧ ∀ m, t.port m = { a.port m with latched := (t.port m).latched, line := (t.port m).line }
        ∧ ∀ v, hasKind (t.port m).latched v ↔ hasKind (s.port m).latched v
            ∨ (v = .zoneDead ∧ (s.port m).role.sees v ∧ ∃ vz ∈ pairs, vz.1 = 32766 ∧ vz.2.freshness ≠ .dead))
  ∧ ∀ (s : State) (n : PortId) (tag : Byte) (payload : List Word), s.hears n .oven payload →
    (s.oven.zones = [] → exec (.zoneSample n tag payload) s = .next (s.answered n 0x62 tag payload .state 0 []))
    ∧ (s.oven.zones ≠ [] →
      ((fields payload).length < s.oven.zones.length →
        exec (.zoneSample n tag payload) s = .next (s.answered n 0x62 tag payload .range payload.length []))
      ∧ ∀ x, (fields payload)[s.oven.zones.length]? = some x →
        exec (.zoneSample n tag payload) s = .next (s.answered n 0x62 tag payload .range x.ownIndex []))

/-- ZONE.CONTENTS (R146) and ROLL.GET (R160), whole: their refusals and the snapshots that they answer; neither changes
anything but the port. A field out of range is named before a second field (assumption log 14), and segments left takes
one word (assumption log 19). -/
def Obligations.ZoneAndRollSnapshots : Prop :=
  (∀ (s : State) (n : PortId) (tag : Byte) (payload : List Word), s.hearsAny payload →
    ((s.port n).role = .inspect →
      exec (.zoneContents n tag payload) s = .next (s.answered n 0x63 tag payload .role 0 []))
    ∧ ((s.port n).role ≠ .inspect →
      (fields payload = [] →
        exec (.zoneContents n tag payload) s = .next (s.answered n 0x63 tag payload .range payload.length []))
      ∧ (∀ f rest, fields payload = f :: rest → f.value = 0 ∨ s.oven.zones.length < f.value →
        exec (.zoneContents n tag payload) s = .next (s.answered n 0x63 tag payload .range f.index []))
      ∧ (∀ f g rest, fields payload = f :: g :: rest → 1 ≤ f.value → f.value ≤ s.oven.zones.length →
        exec (.zoneContents n tag payload) s = .next (s.answered n 0x63 tag payload .range g.index []))
      ∧ (∀ (f : Field) (i : Nat) (z : Zone) (low : Int) (inside : List Segment),
        fields payload = [f] → f.value = i + 1 → s.oven.zones[i]? = some z →
        (i = 0 → low = s.oven.b0) → (∀ y, 0 < i → s.oven.zones[i - 1]? = some y → low = y.zEnd) →
        inside = s.web.queue.filter (fun g => decide (0 < overlap s.pos.p g low z.zEnd)) →
        exec (.zoneContents n tag payload) s = .next (s.answered n 0x63 tag payload .ok 0
          (words1 f.value ++ words2 low ++ words2 z.zEnd ++ words1 z.weight ++ words1 z.temp ++ words1 z.age
            ++ words1 z.freshness.toCode ++ words1 (z.rate s.cure.tBase) ++ words3 s.pos.p ++ words1 inside.length
            ++ (inside.take 16).flatMap fun g =>
              words2 g.seq ++ words2 (overlap s.pos.p g low z.zEnd) ++ words2 g.dose ++ words1 g.peak)))))
  ∧ ∀ (s : State) (n : PortId) (tag : Byte) (payload : List Word) (seam : Roll → List Word), s.hearsAny payload →
    (∀ r, r.seamAt = none → seam r = [0xFFFF, 0xFFFF, 0xFFFF]) → (∀ r c, r.seamAt = some c → seam r = words3 c) →
    (fields payload = [] →
      exec (.rollGet n tag payload) s = .next (s.answered n 0x71 tag payload .ok 0
        (words1 s.web.rolls.length ++ s.web.rolls.flatMap fun r => words1 r.id ++ seam r ++ words1 r.left)))
    ∧ (∀ f rest, fields payload = f :: rest → f.value = 0 ∨ 65535 < f.value →
      exec (.rollGet n tag payload) s = .next (s.answered n 0x71 tag payload .range f.index []))
    ∧ (∀ f g rest, fields payload = f :: g :: rest → 1 ≤ f.value → f.value ≤ 65535 →
      exec (.rollGet n tag payload) s = .next (s.answered n 0x71 tag payload .range g.index []))
    ∧ (∀ f, fields payload = [f] → 1 ≤ f.value → f.value ≤ 65535 →
      ((∀ r ∈ s.web.rolls, r.id ≠ f.value) →
        exec (.rollGet n tag payload) s = .next (s.answered n 0x71 tag payload .gone 0 []))
      ∧ (∀ r, s.web.rolls.find? (fun r => r.id == f.value) = some r →
        exec (.rollGet n tag payload) s = .next (s.answered n 0x71 tag payload .ok 0
          (words1 r.id ++ seam r ++ words2 (r.firstSeq.getD 0) ++ words2 (r.lastSeq.getD 0) ++ words1 r.left
            ++ r.tally.counts.flatMap (fun c => words2 c) ++ words3 r.totalLength))))

/-- STATUS.GET (R179, R50): a field is refused naming it; else the 50 words in their order, with the five sets screen by
screen; it changes nothing but the port. -/
def Obligations.StatusGetReportsFiftyWords : Prop :=
  ∀ (s : State) (n : PortId) (tag : Byte) (payload ws : List Word) (aligned slewing limit lag : ScreenSet),
    s.hearsAny payload →
    (∀ k, inSet aligned k = true ↔
      (s.screen k).present = true ∧ (s.screen k).kind = .anchor ∧ (s.screen k).aligned = true) →
    (∀ k, inSet slewing k = true ↔
      (s.screen k).present = true ∧ (s.screen k).chan.applied ≠ (s.screen k).chan.target) →
    (∀ k, inSet limit k = true ↔ (s.screen k).present = true ∧ 0 < (s.screen k).limit
      ∧ ((s.screen k).chan.target = (s.screen k).limit ∨ (s.screen k).chan.target = -(s.screen k).limit)) →
    (∀ k, inSet lag k = true ↔ (s.screen k).present = true ∧ (s.screen k).chan.target < 0) →
    ws = words1 s.web.lineState.toCode ++ words1 s.ring.state.toCode ++ words1 s.pos.motion.toCode
      ++ words1 (if s.ring.hold then 1 else 0) ++ words1 (if s.web.exhausted then 1 else 0)
      ++ words1 (s.port n).role.toCode ++ words3 s.pos.p ++ words1 s.phase.stretch ++ words2 s.web.nextSeq
      ++ words1 s.web.queue.length ++ words1 s.reports.length ++ words1 s.ring.faults.length
      ++ words1 s.web.rolls.length ++ words2 aligned.toNat ++ words2 s.planned.toNat ++ words2 slewing.toNat
      ++ words2 limit.toNat ++ words2 lag.toNat ++ (List.finRange 24).flatMap (fun k => words1 (s.engState k).toCode) →
    ws.length = 50
    ∧ (fields payload = [] → exec (.statusGet n tag payload) s = .next (s.answered n 0x78 tag payload .ok 0 ws))
    ∧ ∀ f rest, fields payload = f :: rest →
      exec (.statusGet n tag payload) s = .next (s.answered n 0x78 tag payload .range f.index [])

/-- ATTN.ENABLE (R191), whole: its checks in order; an accepted one makes the enabled set the requested kinds that the
role may see, leaves every pending set, evaluates the line and answers both sets. -/
def Obligations.AttnEnableReplacesEnabledSet : Prop :=
  ∀ (s : State) (n : PortId) (tag : Byte) (payload : List Word), s.hearsAny payload →
    (fields payload = [] →
      exec (.attnEnable n tag payload) s = .next (s.answered n 0x7C tag payload .range payload.length []))
    ∧ (∀ f g rest, fields payload = f :: g :: rest →
      exec (.attnEnable n tag payload) s = .next (s.answered n 0x7C tag payload .range g.index []))
    ∧ ∀ f, fields payload = [f] →
      (131071 < f.value →
        exec (.attnEnable n tag payload) s = .next (s.answered n 0x7C tag payload .range f.index []))
      ∧ (f.value ≤ 131071 → ∀ (enabled pending : KindSet) (a : State),
        (∀ e, hasKind enabled e ↔ f.value.testBit e.toCode = true ∧ (s.port n).role.sees e) →
        (∀ e, hasKind pending e ↔ s.pendingOn n e) →
        a = s.answered n 0x7C tag payload .ok 0 (words2 enabled.toNat ++ words2 pending.toNat) →
        ∃ t : State, exec (.attnEnable n tag payload) s = .next t
          ∧ t = { a with ports := t.ports } ∧ t.LinesFollow
          ∧ ∀ m, t.port m = { a.port m with
              enabled := if m = n then enabled else (s.port m).enabled, line := (t.port m).line })

/-- ATTN.TAKE (R192), whole: a field is refused naming it; else the pending set and the enabled set are answered, every
latched kind of the port goes, and the line is evaluated. -/
def Obligations.AttnTakeReadsAndClearsPending : Prop :=
  ∀ (s : State) (n : PortId) (tag : Byte) (payload : List Word), s.hearsAny payload →
    (∀ f rest, fields payload = f :: rest →
      exec (.attnTake n tag payload) s = .next (s.answered n 0x7D tag payload .range f.index []))
    ∧ (fields payload = [] → ∀ (pending : KindSet) (a : State),
      (∀ e, hasKind pending e ↔ s.pendingOn n e) →
      a = s.answered n 0x7D tag payload .ok 0 (words2 pending.toNat ++ words2 (s.port n).enabled.toNat) →
      ∃ t : State, exec (.attnTake n tag payload) s = .next t
        ∧ t = { a with ports := t.ports } ∧ t.LinesFollow
        ∧ ∀ m, t.port m = { a.port m with
            latched := if m = n then 0 else (s.port m).latched, line := (t.port m).line })

/-! ### What every step keeps -/

/-- The hold output stands as its condition gives it after every step (R84). -/
def Obligations.HoldFollowsEveryStep : Prop := KeptByStep State.HoldFollows

/-- Every attention line stands as its port's sets give it after every step, and both sets hold only kinds that the role
may see, with at most one port acting as LINE and one as OVEN (R176, R189, R190). -/
def Obligations.LinesFollowEveryStep : Prop := KeptByStep State.LinesFollow ∧ KeptByStep State.PortsWithinRoles

/-- The web position, the still counter and the motion state stay lawful (R6, R8). -/
def Obligations.PositionStaysLawful : Prop := KeptByStep State.PositionLawful

/-- The screen table, the trims, the miss counts and the fault causes stay lawful (R15, R18, R20, R44). -/
def Obligations.ScreensStayLawful : Prop := KeptByStep State.ScreensLawful

/-- The phase accumulators, repeat lengths, gear constants and setpoints stay in their ranges (R32, R33, R41, R42). -/
def Obligations.ChannelsStayInRange : Prop := KeptByStep State.ChannelsInRange

/-- The planned set stays as the line state and the engagement states allow it (R25, R53). -/
def Obligations.PlannedSetFollowsEngagement : Prop := KeptByStep State.PlannedFollows

/-- The segment queue stays contiguous, and seqs rise through the waiting reports and the queue (R94, R98, R155). -/
def Obligations.QueueStaysInOrder : Prop := KeptByStep State.QueueInOrder

/-- The lists stay within their bounds and orders (R80, R94, R102, R115, R155). Given the orders of the queue and the
ranges of the repeat lengths, which stay as ListsStayBounded, ChannelsStayInRange and QueueStaysInOrder say, the roll table
stays as R102, R103 and R107 say: every queued record names a roll of it, segments left is the number queued, and no two
rolls share an id. The roll of a record that no roll may hold is the model's choice (assumption log 31). -/
def Obligations.ListsStayBounded : Prop :=
  KeptByStep State.ListsBounded
  ∧ ∀ s t : State, s.ListsBounded → s.ChannelsInRange → s.QueueInOrder → s.RollsFollow → step s = .next t → t.RollsFollow
end

