-- ==== Sys2Proof/Laws/State.lean ====
section
/-! SUPPORT. One lemma per field per named update of State, so that no proof unfolds a record update. -/

namespace Sys2Proof.Machine

/-! ### withInReset -/

@[simp] theorem State.withInReset_inReset (s : State) (v : Bool) : (s.withInReset v).inReset = v := rfl
@[simp] theorem State.withInReset_pos (s : State) (v : Bool) : (s.withInReset v).pos = s.pos := rfl
@[simp] theorem State.withInReset_line (s : State) (v : Bool) : (s.withInReset v).line = s.line := rfl
@[simp] theorem State.withInReset_screens (s : State) (v : Bool) : (s.withInReset v).screens = s.screens := rfl
@[simp] theorem State.withInReset_phase (s : State) (v : Bool) : (s.withInReset v).phase = s.phase := rfl
@[simp] theorem State.withInReset_planned (s : State) (v : Bool) : (s.withInReset v).planned = s.planned := rfl
@[simp] theorem State.withInReset_ring (s : State) (v : Bool) : (s.withInReset v).ring = s.ring := rfl
@[simp] theorem State.withInReset_web (s : State) (v : Bool) : (s.withInReset v).web = s.web := rfl
@[simp] theorem State.withInReset_oven (s : State) (v : Bool) : (s.withInReset v).oven = s.oven := rfl
@[simp] theorem State.withInReset_cure (s : State) (v : Bool) : (s.withInReset v).cure = s.cure := rfl
@[simp] theorem State.withInReset_reports (s : State) (v : Bool) : (s.withInReset v).reports = s.reports := rfl
@[simp] theorem State.withInReset_ports (s : State) (v : Bool) : (s.withInReset v).ports = s.ports := rfl
@[simp] theorem State.withInReset_freeIndex (s : State) (v : Bool) : (s.withInReset v).freeIndex = s.freeIndex := rfl
@[simp] theorem State.withInReset_pending (s : State) (v : Bool) : (s.withInReset v).pending = s.pending := rfl

/-! ### withPos -/

@[simp] theorem State.withPos_inReset (s : State) (v : Position) : (s.withPos v).inReset = s.inReset := rfl
@[simp] theorem State.withPos_pos (s : State) (v : Position) : (s.withPos v).pos = v := rfl
@[simp] theorem State.withPos_line (s : State) (v : Position) : (s.withPos v).line = s.line := rfl
@[simp] theorem State.withPos_screens (s : State) (v : Position) : (s.withPos v).screens = s.screens := rfl
@[simp] theorem State.withPos_phase (s : State) (v : Position) : (s.withPos v).phase = s.phase := rfl
@[simp] theorem State.withPos_planned (s : State) (v : Position) : (s.withPos v).planned = s.planned := rfl
@[simp] theorem State.withPos_ring (s : State) (v : Position) : (s.withPos v).ring = s.ring := rfl
@[simp] theorem State.withPos_web (s : State) (v : Position) : (s.withPos v).web = s.web := rfl
@[simp] theorem State.withPos_oven (s : State) (v : Position) : (s.withPos v).oven = s.oven := rfl
@[simp] theorem State.withPos_cure (s : State) (v : Position) : (s.withPos v).cure = s.cure := rfl
@[simp] theorem State.withPos_reports (s : State) (v : Position) : (s.withPos v).reports = s.reports := rfl
@[simp] theorem State.withPos_ports (s : State) (v : Position) : (s.withPos v).ports = s.ports := rfl
@[simp] theorem State.withPos_freeIndex (s : State) (v : Position) : (s.withPos v).freeIndex = s.freeIndex := rfl
@[simp] theorem State.withPos_pending (s : State) (v : Position) : (s.withPos v).pending = s.pending := rfl

/-! ### withLine -/

@[simp] theorem State.withLine_inReset (s : State) (v : LineSettings) : (s.withLine v).inReset = s.inReset := rfl
@[simp] theorem State.withLine_pos (s : State) (v : LineSettings) : (s.withLine v).pos = s.pos := rfl
@[simp] theorem State.withLine_line (s : State) (v : LineSettings) : (s.withLine v).line = v := rfl
@[simp] theorem State.withLine_screens (s : State) (v : LineSettings) : (s.withLine v).screens = s.screens := rfl
@[simp] theorem State.withLine_phase (s : State) (v : LineSettings) : (s.withLine v).phase = s.phase := rfl
@[simp] theorem State.withLine_planned (s : State) (v : LineSettings) : (s.withLine v).planned = s.planned := rfl
@[simp] theorem State.withLine_ring (s : State) (v : LineSettings) : (s.withLine v).ring = s.ring := rfl
@[simp] theorem State.withLine_web (s : State) (v : LineSettings) : (s.withLine v).web = s.web := rfl
@[simp] theorem State.withLine_oven (s : State) (v : LineSettings) : (s.withLine v).oven = s.oven := rfl
@[simp] theorem State.withLine_cure (s : State) (v : LineSettings) : (s.withLine v).cure = s.cure := rfl
@[simp] theorem State.withLine_reports (s : State) (v : LineSettings) : (s.withLine v).reports = s.reports := rfl
@[simp] theorem State.withLine_ports (s : State) (v : LineSettings) : (s.withLine v).ports = s.ports := rfl
@[simp] theorem State.withLine_freeIndex (s : State) (v : LineSettings) : (s.withLine v).freeIndex = s.freeIndex := rfl
@[simp] theorem State.withLine_pending (s : State) (v : LineSettings) : (s.withLine v).pending = s.pending := rfl

/-! ### withScreens -/

@[simp] theorem State.withScreens_inReset (s : State) (v : Vector Screen 24) : (s.withScreens v).inReset = s.inReset := rfl
@[simp] theorem State.withScreens_pos (s : State) (v : Vector Screen 24) : (s.withScreens v).pos = s.pos := rfl
@[simp] theorem State.withScreens_line (s : State) (v : Vector Screen 24) : (s.withScreens v).line = s.line := rfl
@[simp] theorem State.withScreens_screens (s : State) (v : Vector Screen 24) : (s.withScreens v).screens = v := rfl
@[simp] theorem State.withScreens_phase (s : State) (v : Vector Screen 24) : (s.withScreens v).phase = s.phase := rfl
@[simp] theorem State.withScreens_planned (s : State) (v : Vector Screen 24) : (s.withScreens v).planned = s.planned := rfl
@[simp] theorem State.withScreens_ring (s : State) (v : Vector Screen 24) : (s.withScreens v).ring = s.ring := rfl
@[simp] theorem State.withScreens_web (s : State) (v : Vector Screen 24) : (s.withScreens v).web = s.web := rfl
@[simp] theorem State.withScreens_oven (s : State) (v : Vector Screen 24) : (s.withScreens v).oven = s.oven := rfl
@[simp] theorem State.withScreens_cure (s : State) (v : Vector Screen 24) : (s.withScreens v).cure = s.cure := rfl
@[simp] theorem State.withScreens_reports (s : State) (v : Vector Screen 24) : (s.withScreens v).reports = s.reports := rfl
@[simp] theorem State.withScreens_ports (s : State) (v : Vector Screen 24) : (s.withScreens v).ports = s.ports := rfl
@[simp] theorem State.withScreens_freeIndex (s : State) (v : Vector Screen 24) : (s.withScreens v).freeIndex = s.freeIndex := rfl
@[simp] theorem State.withScreens_pending (s : State) (v : Vector Screen 24) : (s.withScreens v).pending = s.pending := rfl

/-! ### withPhase -/

@[simp] theorem State.withPhase_inReset (s : State) (v : PhaseShared) : (s.withPhase v).inReset = s.inReset := rfl
@[simp] theorem State.withPhase_pos (s : State) (v : PhaseShared) : (s.withPhase v).pos = s.pos := rfl
@[simp] theorem State.withPhase_line (s : State) (v : PhaseShared) : (s.withPhase v).line = s.line := rfl
@[simp] theorem State.withPhase_screens (s : State) (v : PhaseShared) : (s.withPhase v).screens = s.screens := rfl
@[simp] theorem State.withPhase_phase (s : State) (v : PhaseShared) : (s.withPhase v).phase = v := rfl
@[simp] theorem State.withPhase_planned (s : State) (v : PhaseShared) : (s.withPhase v).planned = s.planned := rfl
@[simp] theorem State.withPhase_ring (s : State) (v : PhaseShared) : (s.withPhase v).ring = s.ring := rfl
@[simp] theorem State.withPhase_web (s : State) (v : PhaseShared) : (s.withPhase v).web = s.web := rfl
@[simp] theorem State.withPhase_oven (s : State) (v : PhaseShared) : (s.withPhase v).oven = s.oven := rfl
@[simp] theorem State.withPhase_cure (s : State) (v : PhaseShared) : (s.withPhase v).cure = s.cure := rfl
@[simp] theorem State.withPhase_reports (s : State) (v : PhaseShared) : (s.withPhase v).reports = s.reports := rfl
@[simp] theorem State.withPhase_ports (s : State) (v : PhaseShared) : (s.withPhase v).ports = s.ports := rfl
@[simp] theorem State.withPhase_freeIndex (s : State) (v : PhaseShared) : (s.withPhase v).freeIndex = s.freeIndex := rfl
@[simp] theorem State.withPhase_pending (s : State) (v : PhaseShared) : (s.withPhase v).pending = s.pending := rfl

/-! ### withPlanned -/

@[simp] theorem State.withPlanned_inReset (s : State) (v : ScreenSet) : (s.withPlanned v).inReset = s.inReset := rfl
@[simp] theorem State.withPlanned_pos (s : State) (v : ScreenSet) : (s.withPlanned v).pos = s.pos := rfl
@[simp] theorem State.withPlanned_line (s : State) (v : ScreenSet) : (s.withPlanned v).line = s.line := rfl
@[simp] theorem State.withPlanned_screens (s : State) (v : ScreenSet) : (s.withPlanned v).screens = s.screens := rfl
@[simp] theorem State.withPlanned_phase (s : State) (v : ScreenSet) : (s.withPlanned v).phase = s.phase := rfl
@[simp] theorem State.withPlanned_planned (s : State) (v : ScreenSet) : (s.withPlanned v).planned = v := rfl
@[simp] theorem State.withPlanned_ring (s : State) (v : ScreenSet) : (s.withPlanned v).ring = s.ring := rfl
@[simp] theorem State.withPlanned_web (s : State) (v : ScreenSet) : (s.withPlanned v).web = s.web := rfl
@[simp] theorem State.withPlanned_oven (s : State) (v : ScreenSet) : (s.withPlanned v).oven = s.oven := rfl
@[simp] theorem State.withPlanned_cure (s : State) (v : ScreenSet) : (s.withPlanned v).cure = s.cure := rfl
@[simp] theorem State.withPlanned_reports (s : State) (v : ScreenSet) : (s.withPlanned v).reports = s.reports := rfl
@[simp] theorem State.withPlanned_ports (s : State) (v : ScreenSet) : (s.withPlanned v).ports = s.ports := rfl
@[simp] theorem State.withPlanned_freeIndex (s : State) (v : ScreenSet) : (s.withPlanned v).freeIndex = s.freeIndex := rfl
@[simp] theorem State.withPlanned_pending (s : State) (v : ScreenSet) : (s.withPlanned v).pending = s.pending := rfl

/-! ### withRing -/

@[simp] theorem State.withRing_inReset (s : State) (v : Ring) : (s.withRing v).inReset = s.inReset := rfl
@[simp] theorem State.withRing_pos (s : State) (v : Ring) : (s.withRing v).pos = s.pos := rfl
@[simp] theorem State.withRing_line (s : State) (v : Ring) : (s.withRing v).line = s.line := rfl
@[simp] theorem State.withRing_screens (s : State) (v : Ring) : (s.withRing v).screens = s.screens := rfl
@[simp] theorem State.withRing_phase (s : State) (v : Ring) : (s.withRing v).phase = s.phase := rfl
@[simp] theorem State.withRing_planned (s : State) (v : Ring) : (s.withRing v).planned = s.planned := rfl
@[simp] theorem State.withRing_ring (s : State) (v : Ring) : (s.withRing v).ring = v := rfl
@[simp] theorem State.withRing_web (s : State) (v : Ring) : (s.withRing v).web = s.web := rfl
@[simp] theorem State.withRing_oven (s : State) (v : Ring) : (s.withRing v).oven = s.oven := rfl
@[simp] theorem State.withRing_cure (s : State) (v : Ring) : (s.withRing v).cure = s.cure := rfl
@[simp] theorem State.withRing_reports (s : State) (v : Ring) : (s.withRing v).reports = s.reports := rfl
@[simp] theorem State.withRing_ports (s : State) (v : Ring) : (s.withRing v).ports = s.ports := rfl
@[simp] theorem State.withRing_freeIndex (s : State) (v : Ring) : (s.withRing v).freeIndex = s.freeIndex := rfl
@[simp] theorem State.withRing_pending (s : State) (v : Ring) : (s.withRing v).pending = s.pending := rfl

/-! ### withWeb -/

@[simp] theorem State.withWeb_inReset (s : State) (v : WebMap) : (s.withWeb v).inReset = s.inReset := rfl
@[simp] theorem State.withWeb_pos (s : State) (v : WebMap) : (s.withWeb v).pos = s.pos := rfl
@[simp] theorem State.withWeb_line (s : State) (v : WebMap) : (s.withWeb v).line = s.line := rfl
@[simp] theorem State.withWeb_screens (s : State) (v : WebMap) : (s.withWeb v).screens = s.screens := rfl
@[simp] theorem State.withWeb_phase (s : State) (v : WebMap) : (s.withWeb v).phase = s.phase := rfl
@[simp] theorem State.withWeb_planned (s : State) (v : WebMap) : (s.withWeb v).planned = s.planned := rfl
@[simp] theorem State.withWeb_ring (s : State) (v : WebMap) : (s.withWeb v).ring = s.ring := rfl
@[simp] theorem State.withWeb_web (s : State) (v : WebMap) : (s.withWeb v).web = v := rfl
@[simp] theorem State.withWeb_oven (s : State) (v : WebMap) : (s.withWeb v).oven = s.oven := rfl
@[simp] theorem State.withWeb_cure (s : State) (v : WebMap) : (s.withWeb v).cure = s.cure := rfl
@[simp] theorem State.withWeb_reports (s : State) (v : WebMap) : (s.withWeb v).reports = s.reports := rfl
@[simp] theorem State.withWeb_ports (s : State) (v : WebMap) : (s.withWeb v).ports = s.ports := rfl
@[simp] theorem State.withWeb_freeIndex (s : State) (v : WebMap) : (s.withWeb v).freeIndex = s.freeIndex := rfl
@[simp] theorem State.withWeb_pending (s : State) (v : WebMap) : (s.withWeb v).pending = s.pending := rfl

/-! ### withOven -/

@[simp] theorem State.withOven_inReset (s : State) (v : ZoneTable) : (s.withOven v).inReset = s.inReset := rfl
@[simp] theorem State.withOven_pos (s : State) (v : ZoneTable) : (s.withOven v).pos = s.pos := rfl
@[simp] theorem State.withOven_line (s : State) (v : ZoneTable) : (s.withOven v).line = s.line := rfl
@[simp] theorem State.withOven_screens (s : State) (v : ZoneTable) : (s.withOven v).screens = s.screens := rfl
@[simp] theorem State.withOven_phase (s : State) (v : ZoneTable) : (s.withOven v).phase = s.phase := rfl
@[simp] theorem State.withOven_planned (s : State) (v : ZoneTable) : (s.withOven v).planned = s.planned := rfl
@[simp] theorem State.withOven_ring (s : State) (v : ZoneTable) : (s.withOven v).ring = s.ring := rfl
@[simp] theorem State.withOven_web (s : State) (v : ZoneTable) : (s.withOven v).web = s.web := rfl
@[simp] theorem State.withOven_oven (s : State) (v : ZoneTable) : (s.withOven v).oven = v := rfl
@[simp] theorem State.withOven_cure (s : State) (v : ZoneTable) : (s.withOven v).cure = s.cure := rfl
@[simp] theorem State.withOven_reports (s : State) (v : ZoneTable) : (s.withOven v).reports = s.reports := rfl
@[simp] theorem State.withOven_ports (s : State) (v : ZoneTable) : (s.withOven v).ports = s.ports := rfl
@[simp] theorem State.withOven_freeIndex (s : State) (v : ZoneTable) : (s.withOven v).freeIndex = s.freeIndex := rfl
@[simp] theorem State.withOven_pending (s : State) (v : ZoneTable) : (s.withOven v).pending = s.pending := rfl

/-! ### withCure -/

@[simp] theorem State.withCure_inReset (s : State) (v : CureProfile) : (s.withCure v).inReset = s.inReset := rfl
@[simp] theorem State.withCure_pos (s : State) (v : CureProfile) : (s.withCure v).pos = s.pos := rfl
@[simp] theorem State.withCure_line (s : State) (v : CureProfile) : (s.withCure v).line = s.line := rfl
@[simp] theorem State.withCure_screens (s : State) (v : CureProfile) : (s.withCure v).screens = s.screens := rfl
@[simp] theorem State.withCure_phase (s : State) (v : CureProfile) : (s.withCure v).phase = s.phase := rfl
@[simp] theorem State.withCure_planned (s : State) (v : CureProfile) : (s.withCure v).planned = s.planned := rfl
@[simp] theorem State.withCure_ring (s : State) (v : CureProfile) : (s.withCure v).ring = s.ring := rfl
@[simp] theorem State.withCure_web (s : State) (v : CureProfile) : (s.withCure v).web = s.web := rfl
@[simp] theorem State.withCure_oven (s : State) (v : CureProfile) : (s.withCure v).oven = s.oven := rfl
@[simp] theorem State.withCure_cure (s : State) (v : CureProfile) : (s.withCure v).cure = v := rfl
@[simp] theorem State.withCure_reports (s : State) (v : CureProfile) : (s.withCure v).reports = s.reports := rfl
@[simp] theorem State.withCure_ports (s : State) (v : CureProfile) : (s.withCure v).ports = s.ports := rfl
@[simp] theorem State.withCure_freeIndex (s : State) (v : CureProfile) : (s.withCure v).freeIndex = s.freeIndex := rfl
@[simp] theorem State.withCure_pending (s : State) (v : CureProfile) : (s.withCure v).pending = s.pending := rfl

/-! ### withReports -/

@[simp] theorem State.withReports_inReset (s : State) (v : List Report) : (s.withReports v).inReset = s.inReset := rfl
@[simp] theorem State.withReports_pos (s : State) (v : List Report) : (s.withReports v).pos = s.pos := rfl
@[simp] theorem State.withReports_line (s : State) (v : List Report) : (s.withReports v).line = s.line := rfl
@[simp] theorem State.withReports_screens (s : State) (v : List Report) : (s.withReports v).screens = s.screens := rfl
@[simp] theorem State.withReports_phase (s : State) (v : List Report) : (s.withReports v).phase = s.phase := rfl
@[simp] theorem State.withReports_planned (s : State) (v : List Report) : (s.withReports v).planned = s.planned := rfl
@[simp] theorem State.withReports_ring (s : State) (v : List Report) : (s.withReports v).ring = s.ring := rfl
@[simp] theorem State.withReports_web (s : State) (v : List Report) : (s.withReports v).web = s.web := rfl
@[simp] theorem State.withReports_oven (s : State) (v : List Report) : (s.withReports v).oven = s.oven := rfl
@[simp] theorem State.withReports_cure (s : State) (v : List Report) : (s.withReports v).cure = s.cure := rfl
@[simp] theorem State.withReports_reports (s : State) (v : List Report) : (s.withReports v).reports = v := rfl
@[simp] theorem State.withReports_ports (s : State) (v : List Report) : (s.withReports v).ports = s.ports := rfl
@[simp] theorem State.withReports_freeIndex (s : State) (v : List Report) : (s.withReports v).freeIndex = s.freeIndex := rfl
@[simp] theorem State.withReports_pending (s : State) (v : List Report) : (s.withReports v).pending = s.pending := rfl

/-! ### withPorts -/

@[simp] theorem State.withPorts_inReset (s : State) (v : Vector Port 4) : (s.withPorts v).inReset = s.inReset := rfl
@[simp] theorem State.withPorts_pos (s : State) (v : Vector Port 4) : (s.withPorts v).pos = s.pos := rfl
@[simp] theorem State.withPorts_line (s : State) (v : Vector Port 4) : (s.withPorts v).line = s.line := rfl
@[simp] theorem State.withPorts_screens (s : State) (v : Vector Port 4) : (s.withPorts v).screens = s.screens := rfl
@[simp] theorem State.withPorts_phase (s : State) (v : Vector Port 4) : (s.withPorts v).phase = s.phase := rfl
@[simp] theorem State.withPorts_planned (s : State) (v : Vector Port 4) : (s.withPorts v).planned = s.planned := rfl
@[simp] theorem State.withPorts_ring (s : State) (v : Vector Port 4) : (s.withPorts v).ring = s.ring := rfl
@[simp] theorem State.withPorts_web (s : State) (v : Vector Port 4) : (s.withPorts v).web = s.web := rfl
@[simp] theorem State.withPorts_oven (s : State) (v : Vector Port 4) : (s.withPorts v).oven = s.oven := rfl
@[simp] theorem State.withPorts_cure (s : State) (v : Vector Port 4) : (s.withPorts v).cure = s.cure := rfl
@[simp] theorem State.withPorts_reports (s : State) (v : Vector Port 4) : (s.withPorts v).reports = s.reports := rfl
@[simp] theorem State.withPorts_ports (s : State) (v : Vector Port 4) : (s.withPorts v).ports = v := rfl
@[simp] theorem State.withPorts_freeIndex (s : State) (v : Vector Port 4) : (s.withPorts v).freeIndex = s.freeIndex := rfl
@[simp] theorem State.withPorts_pending (s : State) (v : Vector Port 4) : (s.withPorts v).pending = s.pending := rfl

/-! ### withFreeIndex -/

@[simp] theorem State.withFreeIndex_inReset (s : State) (v : Nat) : (s.withFreeIndex v).inReset = s.inReset := rfl
@[simp] theorem State.withFreeIndex_pos (s : State) (v : Nat) : (s.withFreeIndex v).pos = s.pos := rfl
@[simp] theorem State.withFreeIndex_line (s : State) (v : Nat) : (s.withFreeIndex v).line = s.line := rfl
@[simp] theorem State.withFreeIndex_screens (s : State) (v : Nat) : (s.withFreeIndex v).screens = s.screens := rfl
@[simp] theorem State.withFreeIndex_phase (s : State) (v : Nat) : (s.withFreeIndex v).phase = s.phase := rfl
@[simp] theorem State.withFreeIndex_planned (s : State) (v : Nat) : (s.withFreeIndex v).planned = s.planned := rfl
@[simp] theorem State.withFreeIndex_ring (s : State) (v : Nat) : (s.withFreeIndex v).ring = s.ring := rfl
@[simp] theorem State.withFreeIndex_web (s : State) (v : Nat) : (s.withFreeIndex v).web = s.web := rfl
@[simp] theorem State.withFreeIndex_oven (s : State) (v : Nat) : (s.withFreeIndex v).oven = s.oven := rfl
@[simp] theorem State.withFreeIndex_cure (s : State) (v : Nat) : (s.withFreeIndex v).cure = s.cure := rfl
@[simp] theorem State.withFreeIndex_reports (s : State) (v : Nat) : (s.withFreeIndex v).reports = s.reports := rfl
@[simp] theorem State.withFreeIndex_ports (s : State) (v : Nat) : (s.withFreeIndex v).ports = s.ports := rfl
@[simp] theorem State.withFreeIndex_freeIndex (s : State) (v : Nat) : (s.withFreeIndex v).freeIndex = v := rfl
@[simp] theorem State.withFreeIndex_pending (s : State) (v : Nat) : (s.withFreeIndex v).pending = s.pending := rfl

/-! ### withPending -/

@[simp] theorem State.withPending_inReset (s : State) (v : List Instr) : (s.withPending v).inReset = s.inReset := rfl
@[simp] theorem State.withPending_pos (s : State) (v : List Instr) : (s.withPending v).pos = s.pos := rfl
@[simp] theorem State.withPending_line (s : State) (v : List Instr) : (s.withPending v).line = s.line := rfl
@[simp] theorem State.withPending_screens (s : State) (v : List Instr) : (s.withPending v).screens = s.screens := rfl
@[simp] theorem State.withPending_phase (s : State) (v : List Instr) : (s.withPending v).phase = s.phase := rfl
@[simp] theorem State.withPending_planned (s : State) (v : List Instr) : (s.withPending v).planned = s.planned := rfl
@[simp] theorem State.withPending_ring (s : State) (v : List Instr) : (s.withPending v).ring = s.ring := rfl
@[simp] theorem State.withPending_web (s : State) (v : List Instr) : (s.withPending v).web = s.web := rfl
@[simp] theorem State.withPending_oven (s : State) (v : List Instr) : (s.withPending v).oven = s.oven := rfl
@[simp] theorem State.withPending_cure (s : State) (v : List Instr) : (s.withPending v).cure = s.cure := rfl
@[simp] theorem State.withPending_reports (s : State) (v : List Instr) : (s.withPending v).reports = s.reports := rfl
@[simp] theorem State.withPending_ports (s : State) (v : List Instr) : (s.withPending v).ports = s.ports := rfl
@[simp] theorem State.withPending_freeIndex (s : State) (v : List Instr) : (s.withPending v).freeIndex = s.freeIndex := rfl
@[simp] theorem State.withPending_pending (s : State) (v : List Instr) : (s.withPending v).pending = v := rfl

end Sys2Proof.Machine
end

