-- ==== Sys2Proof/Laws/Ops.lean ====
section
/-! SUPPORT. What the shared operations over screens, ports, sets, groups and the queue can do, said once. -/

namespace Sys2Proof.Machine

/-! ### Screens -/

@[simp] theorem State.screen_withScreens (s : State) (v : Vector Screen 24) (k : ScreenId) :
    (s.withScreens v).screen k = v[k] := rfl

/-- Changing screen j changes what is held for screen j, and for no other. -/
theorem State.screen_modScreen (j k : ScreenId) (f : Screen → Screen) (s : State) :
    (s.modScreen j f).screen k = if k = j then f (s.screen j) else s.screen k := by
  unfold State.modScreen State.screen
  by_cases h : k = j
  · subst h; simp
  · have h' : ¬ j.val = k.val := fun e => h (Fin.ext e.symm)
    simp [h, h']

@[simp] theorem State.screen_modScreen_same (k : ScreenId) (f : Screen → Screen) (s : State) :
    (s.modScreen k f).screen k = f (s.screen k) := by simp [State.screen_modScreen]

theorem State.screen_modScreen_ne {j k : ScreenId} (h : k ≠ j) (f : Screen → Screen) (s : State) :
    (s.modScreen j f).screen k = s.screen k := by simp [State.screen_modScreen, h]

@[simp] theorem State.screen_mapScreens (f : ScreenId → Screen → Screen) (s : State) (k : ScreenId) :
    (s.mapScreens f).screen k = f k (s.screen k) := by
  simp [State.mapScreens, State.screen]

theorem State.screen_modEng (j k : ScreenId) (f : Engagement → Engagement) (s : State) :
    (s.modEng j f).screen k = if k = j then { s.screen j with eng := f (s.screen j).eng } else s.screen k :=
  State.screen_modScreen j k _ s

theorem State.screen_modChan (j k : ScreenId) (f : Channel → Channel) (s : State) :
    (s.modChan j f).screen k = if k = j then { s.screen j with chan := f (s.screen j).chan } else s.screen k :=
  State.screen_modScreen j k _ s

/-- Two states that agree in every field but screens, and in every screen, are equal. -/
theorem State.ext_screens {s t : State} (h : t = s.withScreens t.screens) (hk : ∀ k, t.screen k = s.screen k) :
    t = s := by
  have hv : t.screens = s.screens := Vector.ext fun i hi => hk ⟨i, hi⟩
  rw [h, hv]; rfl

@[simp] theorem State.modScreen_inReset (k : ScreenId) (f : Screen → Screen) (s : State) : (s.modScreen k f).inReset = s.inReset := rfl
@[simp] theorem State.modScreen_pos (k : ScreenId) (f : Screen → Screen) (s : State) : (s.modScreen k f).pos = s.pos := rfl
@[simp] theorem State.modScreen_line (k : ScreenId) (f : Screen → Screen) (s : State) : (s.modScreen k f).line = s.line := rfl
@[simp] theorem State.modScreen_phase (k : ScreenId) (f : Screen → Screen) (s : State) : (s.modScreen k f).phase = s.phase := rfl
@[simp] theorem State.modScreen_planned (k : ScreenId) (f : Screen → Screen) (s : State) : (s.modScreen k f).planned = s.planned := rfl
@[simp] theorem State.modScreen_ring (k : ScreenId) (f : Screen → Screen) (s : State) : (s.modScreen k f).ring = s.ring := rfl
@[simp] theorem State.modScreen_web (k : ScreenId) (f : Screen → Screen) (s : State) : (s.modScreen k f).web = s.web := rfl
@[simp] theorem State.modScreen_oven (k : ScreenId) (f : Screen → Screen) (s : State) : (s.modScreen k f).oven = s.oven := rfl
@[simp] theorem State.modScreen_cure (k : ScreenId) (f : Screen → Screen) (s : State) : (s.modScreen k f).cure = s.cure := rfl
@[simp] theorem State.modScreen_reports (k : ScreenId) (f : Screen → Screen) (s : State) : (s.modScreen k f).reports = s.reports := rfl
@[simp] theorem State.modScreen_freeIndex (k : ScreenId) (f : Screen → Screen) (s : State) : (s.modScreen k f).freeIndex = s.freeIndex := rfl
@[simp] theorem State.modScreen_pending (k : ScreenId) (f : Screen → Screen) (s : State) : (s.modScreen k f).pending = s.pending := rfl
@[simp] theorem State.modScreen_ports (k : ScreenId) (f : Screen → Screen) (s : State) : (s.modScreen k f).ports = s.ports := rfl

@[simp] theorem State.mapScreens_inReset (f : ScreenId → Screen → Screen) (s : State) : (s.mapScreens f).inReset = s.inReset :=
  State.withScreens_inReset _ _
@[simp] theorem State.mapScreens_pos (f : ScreenId → Screen → Screen) (s : State) : (s.mapScreens f).pos = s.pos :=
  State.withScreens_pos _ _
@[simp] theorem State.mapScreens_line (f : ScreenId → Screen → Screen) (s : State) : (s.mapScreens f).line = s.line :=
  State.withScreens_line _ _
@[simp] theorem State.mapScreens_phase (f : ScreenId → Screen → Screen) (s : State) : (s.mapScreens f).phase = s.phase :=
  State.withScreens_phase _ _
@[simp] theorem State.mapScreens_planned (f : ScreenId → Screen → Screen) (s : State) : (s.mapScreens f).planned = s.planned :=
  State.withScreens_planned _ _
@[simp] theorem State.mapScreens_ring (f : ScreenId → Screen → Screen) (s : State) : (s.mapScreens f).ring = s.ring :=
  State.withScreens_ring _ _
@[simp] theorem State.mapScreens_web (f : ScreenId → Screen → Screen) (s : State) : (s.mapScreens f).web = s.web :=
  State.withScreens_web _ _
@[simp] theorem State.mapScreens_oven (f : ScreenId → Screen → Screen) (s : State) : (s.mapScreens f).oven = s.oven :=
  State.withScreens_oven _ _
@[simp] theorem State.mapScreens_cure (f : ScreenId → Screen → Screen) (s : State) : (s.mapScreens f).cure = s.cure :=
  State.withScreens_cure _ _
@[simp] theorem State.mapScreens_reports (f : ScreenId → Screen → Screen) (s : State) : (s.mapScreens f).reports = s.reports :=
  State.withScreens_reports _ _
@[simp] theorem State.mapScreens_freeIndex (f : ScreenId → Screen → Screen) (s : State) : (s.mapScreens f).freeIndex = s.freeIndex :=
  State.withScreens_freeIndex _ _
@[simp] theorem State.mapScreens_pending (f : ScreenId → Screen → Screen) (s : State) : (s.mapScreens f).pending = s.pending :=
  State.withScreens_pending _ _
@[simp] theorem State.mapScreens_ports (f : ScreenId → Screen → Screen) (s : State) : (s.mapScreens f).ports = s.ports :=
  State.withScreens_ports _ _

@[simp] theorem State.modEng_inReset (k : ScreenId) (f : Engagement → Engagement) (s : State) : (s.modEng k f).inReset = s.inReset := rfl
@[simp] theorem State.modEng_pos (k : ScreenId) (f : Engagement → Engagement) (s : State) : (s.modEng k f).pos = s.pos := rfl
@[simp] theorem State.modEng_line (k : ScreenId) (f : Engagement → Engagement) (s : State) : (s.modEng k f).line = s.line := rfl
@[simp] theorem State.modEng_phase (k : ScreenId) (f : Engagement → Engagement) (s : State) : (s.modEng k f).phase = s.phase := rfl
@[simp] theorem State.modEng_planned (k : ScreenId) (f : Engagement → Engagement) (s : State) : (s.modEng k f).planned = s.planned := rfl
@[simp] theorem State.modEng_ring (k : ScreenId) (f : Engagement → Engagement) (s : State) : (s.modEng k f).ring = s.ring := rfl
@[simp] theorem State.modEng_web (k : ScreenId) (f : Engagement → Engagement) (s : State) : (s.modEng k f).web = s.web := rfl
@[simp] theorem State.modEng_oven (k : ScreenId) (f : Engagement → Engagement) (s : State) : (s.modEng k f).oven = s.oven := rfl
@[simp] theorem State.modEng_cure (k : ScreenId) (f : Engagement → Engagement) (s : State) : (s.modEng k f).cure = s.cure := rfl
@[simp] theorem State.modEng_reports (k : ScreenId) (f : Engagement → Engagement) (s : State) : (s.modEng k f).reports = s.reports := rfl
@[simp] theorem State.modEng_freeIndex (k : ScreenId) (f : Engagement → Engagement) (s : State) : (s.modEng k f).freeIndex = s.freeIndex := rfl
@[simp] theorem State.modEng_pending (k : ScreenId) (f : Engagement → Engagement) (s : State) : (s.modEng k f).pending = s.pending := rfl
@[simp] theorem State.modEng_ports (k : ScreenId) (f : Engagement → Engagement) (s : State) : (s.modEng k f).ports = s.ports := rfl

@[simp] theorem State.modChan_inReset (k : ScreenId) (f : Channel → Channel) (s : State) : (s.modChan k f).inReset = s.inReset := rfl
@[simp] theorem State.modChan_pos (k : ScreenId) (f : Channel → Channel) (s : State) : (s.modChan k f).pos = s.pos := rfl
@[simp] theorem State.modChan_line (k : ScreenId) (f : Channel → Channel) (s : State) : (s.modChan k f).line = s.line := rfl
@[simp] theorem State.modChan_phase (k : ScreenId) (f : Channel → Channel) (s : State) : (s.modChan k f).phase = s.phase := rfl
@[simp] theorem State.modChan_planned (k : ScreenId) (f : Channel → Channel) (s : State) : (s.modChan k f).planned = s.planned := rfl
@[simp] theorem State.modChan_ring (k : ScreenId) (f : Channel → Channel) (s : State) : (s.modChan k f).ring = s.ring := rfl
@[simp] theorem State.modChan_web (k : ScreenId) (f : Channel → Channel) (s : State) : (s.modChan k f).web = s.web := rfl
@[simp] theorem State.modChan_oven (k : ScreenId) (f : Channel → Channel) (s : State) : (s.modChan k f).oven = s.oven := rfl
@[simp] theorem State.modChan_cure (k : ScreenId) (f : Channel → Channel) (s : State) : (s.modChan k f).cure = s.cure := rfl
@[simp] theorem State.modChan_reports (k : ScreenId) (f : Channel → Channel) (s : State) : (s.modChan k f).reports = s.reports := rfl
@[simp] theorem State.modChan_freeIndex (k : ScreenId) (f : Channel → Channel) (s : State) : (s.modChan k f).freeIndex = s.freeIndex := rfl
@[simp] theorem State.modChan_pending (k : ScreenId) (f : Channel → Channel) (s : State) : (s.modChan k f).pending = s.pending := rfl
@[simp] theorem State.modChan_ports (k : ScreenId) (f : Channel → Channel) (s : State) : (s.modChan k f).ports = s.ports := rfl

/-! ### Ports -/

/-- Changing port m changes port m, and no other. -/
theorem State.port_modPort (m n : PortId) (f : Port → Port) (s : State) :
    (s.modPort m f).port n = if n = m then f (s.port m) else s.port n := by
  unfold State.modPort State.port
  by_cases h : n = m
  · subst h; simp
  · have h' : ¬ m.val = n.val := fun e => h (Fin.ext e.symm)
    simp [h, h']

@[simp] theorem State.port_modPort_same (n : PortId) (f : Port → Port) (s : State) :
    (s.modPort n f).port n = f (s.port n) := by simp [State.port_modPort]

theorem State.port_modPort_ne {m n : PortId} (h : n ≠ m) (f : Port → Port) (s : State) :
    (s.modPort m f).port n = s.port n := by simp [State.port_modPort, h]

@[simp] theorem State.port_mapPorts (f : PortId → Port → Port) (s : State) (n : PortId) :
    (s.mapPorts f).port n = f n (s.port n) := by
  simp [State.mapPorts, State.port]

/-- Two states that agree in every field but ports, and in every port, are equal. -/
theorem State.ext_ports {s t : State} (h : t = s.withPorts t.ports) (hn : ∀ n, t.port n = s.port n) : t = s := by
  have hv : t.ports = s.ports := Vector.ext fun i hi => hn ⟨i, hi⟩
  rw [h, hv]; rfl

/-- Changing a port that a change leaves as it is changes nothing. -/
theorem State.modPort_id {n : PortId} {f : Port → Port} {s : State} (h : f (s.port n) = s.port n) :
    s.modPort n f = s := by
  apply State.ext_ports rfl
  intro m; rw [State.port_modPort]; split
  · rename_i e; rw [h, e]
  · rfl

@[simp] theorem State.modPort_modPort (n : PortId) (f g : Port → Port) (s : State) :
    (s.modPort n f).modPort n g = s.modPort n fun q => g (f q) := by
  apply State.ext_ports rfl
  intro m; simp only [State.port_modPort]; split <;> simp

@[simp] theorem State.modPort_inReset (n : PortId) (f : Port → Port) (s : State) : (s.modPort n f).inReset = s.inReset := rfl
@[simp] theorem State.modPort_pos (n : PortId) (f : Port → Port) (s : State) : (s.modPort n f).pos = s.pos := rfl
@[simp] theorem State.modPort_line (n : PortId) (f : Port → Port) (s : State) : (s.modPort n f).line = s.line := rfl
@[simp] theorem State.modPort_phase (n : PortId) (f : Port → Port) (s : State) : (s.modPort n f).phase = s.phase := rfl
@[simp] theorem State.modPort_planned (n : PortId) (f : Port → Port) (s : State) : (s.modPort n f).planned = s.planned := rfl
@[simp] theorem State.modPort_ring (n : PortId) (f : Port → Port) (s : State) : (s.modPort n f).ring = s.ring := rfl
@[simp] theorem State.modPort_web (n : PortId) (f : Port → Port) (s : State) : (s.modPort n f).web = s.web := rfl
@[simp] theorem State.modPort_oven (n : PortId) (f : Port → Port) (s : State) : (s.modPort n f).oven = s.oven := rfl
@[simp] theorem State.modPort_cure (n : PortId) (f : Port → Port) (s : State) : (s.modPort n f).cure = s.cure := rfl
@[simp] theorem State.modPort_reports (n : PortId) (f : Port → Port) (s : State) : (s.modPort n f).reports = s.reports := rfl
@[simp] theorem State.modPort_freeIndex (n : PortId) (f : Port → Port) (s : State) : (s.modPort n f).freeIndex = s.freeIndex := rfl
@[simp] theorem State.modPort_pending (n : PortId) (f : Port → Port) (s : State) : (s.modPort n f).pending = s.pending := rfl
@[simp] theorem State.modPort_screens (n : PortId) (f : Port → Port) (s : State) : (s.modPort n f).screens = s.screens := rfl

@[simp] theorem State.mapPorts_inReset (f : PortId → Port → Port) (s : State) : (s.mapPorts f).inReset = s.inReset :=
  State.withPorts_inReset _ _
@[simp] theorem State.mapPorts_pos (f : PortId → Port → Port) (s : State) : (s.mapPorts f).pos = s.pos :=
  State.withPorts_pos _ _
@[simp] theorem State.mapPorts_line (f : PortId → Port → Port) (s : State) : (s.mapPorts f).line = s.line :=
  State.withPorts_line _ _
@[simp] theorem State.mapPorts_phase (f : PortId → Port → Port) (s : State) : (s.mapPorts f).phase = s.phase :=
  State.withPorts_phase _ _
@[simp] theorem State.mapPorts_planned (f : PortId → Port → Port) (s : State) : (s.mapPorts f).planned = s.planned :=
  State.withPorts_planned _ _
@[simp] theorem State.mapPorts_ring (f : PortId → Port → Port) (s : State) : (s.mapPorts f).ring = s.ring :=
  State.withPorts_ring _ _
@[simp] theorem State.mapPorts_web (f : PortId → Port → Port) (s : State) : (s.mapPorts f).web = s.web :=
  State.withPorts_web _ _
@[simp] theorem State.mapPorts_oven (f : PortId → Port → Port) (s : State) : (s.mapPorts f).oven = s.oven :=
  State.withPorts_oven _ _
@[simp] theorem State.mapPorts_cure (f : PortId → Port → Port) (s : State) : (s.mapPorts f).cure = s.cure :=
  State.withPorts_cure _ _
@[simp] theorem State.mapPorts_reports (f : PortId → Port → Port) (s : State) : (s.mapPorts f).reports = s.reports :=
  State.withPorts_reports _ _
@[simp] theorem State.mapPorts_freeIndex (f : PortId → Port → Port) (s : State) : (s.mapPorts f).freeIndex = s.freeIndex :=
  State.withPorts_freeIndex _ _
@[simp] theorem State.mapPorts_pending (f : PortId → Port → Port) (s : State) : (s.mapPorts f).pending = s.pending :=
  State.withPorts_pending _ _
@[simp] theorem State.mapPorts_screens (f : PortId → Port → Port) (s : State) : (s.mapPorts f).screens = s.screens :=
  State.withPorts_screens _ _

@[simp] theorem State.screen_modPort (n : PortId) (f : Port → Port) (s : State) (k : ScreenId) :
    (s.modPort n f).screen k = s.screen k := rfl

@[simp] theorem State.screen_mapPorts (f : PortId → Port → Port) (s : State) (k : ScreenId) :
    (s.mapPorts f).screen k = s.screen k := by
  unfold State.screen; rw [State.mapPorts_screens]

@[simp] theorem State.port_modScreen (k : ScreenId) (f : Screen → Screen) (s : State) (n : PortId) :
    (s.modScreen k f).port n = s.port n := rfl

@[simp] theorem State.port_mapScreens (f : ScreenId → Screen → Screen) (s : State) (n : PortId) :
    (s.mapScreens f).port n = s.port n := by
  unfold State.port; rw [State.mapScreens_ports]

/-! ### Updates that touch no screen and no port -/

@[simp] theorem State.screen_withInReset (s : State) (v : Bool) (k : ScreenId) : (s.withInReset v).screen k = s.screen k := rfl
@[simp] theorem State.port_withInReset (s : State) (v : Bool) (n : PortId) : (s.withInReset v).port n = s.port n := rfl
@[simp] theorem State.engState_withInReset (s : State) (v : Bool) (k : ScreenId) : (s.withInReset v).engState k = s.engState k := rfl
@[simp] theorem State.screen_withPos (s : State) (v : Position) (k : ScreenId) : (s.withPos v).screen k = s.screen k := rfl
@[simp] theorem State.port_withPos (s : State) (v : Position) (n : PortId) : (s.withPos v).port n = s.port n := rfl
@[simp] theorem State.engState_withPos (s : State) (v : Position) (k : ScreenId) : (s.withPos v).engState k = s.engState k := rfl
@[simp] theorem State.screen_withLine (s : State) (v : LineSettings) (k : ScreenId) : (s.withLine v).screen k = s.screen k := rfl
@[simp] theorem State.port_withLine (s : State) (v : LineSettings) (n : PortId) : (s.withLine v).port n = s.port n := rfl
@[simp] theorem State.engState_withLine (s : State) (v : LineSettings) (k : ScreenId) : (s.withLine v).engState k = s.engState k := rfl
@[simp] theorem State.screen_withPhase (s : State) (v : PhaseShared) (k : ScreenId) : (s.withPhase v).screen k = s.screen k := rfl
@[simp] theorem State.port_withPhase (s : State) (v : PhaseShared) (n : PortId) : (s.withPhase v).port n = s.port n := rfl
@[simp] theorem State.engState_withPhase (s : State) (v : PhaseShared) (k : ScreenId) : (s.withPhase v).engState k = s.engState k := rfl
@[simp] theorem State.screen_withPlanned (s : State) (v : ScreenSet) (k : ScreenId) : (s.withPlanned v).screen k = s.screen k := rfl
@[simp] theorem State.port_withPlanned (s : State) (v : ScreenSet) (n : PortId) : (s.withPlanned v).port n = s.port n := rfl
@[simp] theorem State.engState_withPlanned (s : State) (v : ScreenSet) (k : ScreenId) : (s.withPlanned v).engState k = s.engState k := rfl
@[simp] theorem State.screen_withRing (s : State) (v : Ring) (k : ScreenId) : (s.withRing v).screen k = s.screen k := rfl
@[simp] theorem State.port_withRing (s : State) (v : Ring) (n : PortId) : (s.withRing v).port n = s.port n := rfl
@[simp] theorem State.engState_withRing (s : State) (v : Ring) (k : ScreenId) : (s.withRing v).engState k = s.engState k := rfl
@[simp] theorem State.screen_withWeb (s : State) (v : WebMap) (k : ScreenId) : (s.withWeb v).screen k = s.screen k := rfl
@[simp] theorem State.port_withWeb (s : State) (v : WebMap) (n : PortId) : (s.withWeb v).port n = s.port n := rfl
@[simp] theorem State.engState_withWeb (s : State) (v : WebMap) (k : ScreenId) : (s.withWeb v).engState k = s.engState k := rfl
@[simp] theorem State.screen_withOven (s : State) (v : ZoneTable) (k : ScreenId) : (s.withOven v).screen k = s.screen k := rfl
@[simp] theorem State.port_withOven (s : State) (v : ZoneTable) (n : PortId) : (s.withOven v).port n = s.port n := rfl
@[simp] theorem State.engState_withOven (s : State) (v : ZoneTable) (k : ScreenId) : (s.withOven v).engState k = s.engState k := rfl
@[simp] theorem State.screen_withCure (s : State) (v : CureProfile) (k : ScreenId) : (s.withCure v).screen k = s.screen k := rfl
@[simp] theorem State.port_withCure (s : State) (v : CureProfile) (n : PortId) : (s.withCure v).port n = s.port n := rfl
@[simp] theorem State.engState_withCure (s : State) (v : CureProfile) (k : ScreenId) : (s.withCure v).engState k = s.engState k := rfl
@[simp] theorem State.screen_withReports (s : State) (v : List Report) (k : ScreenId) : (s.withReports v).screen k = s.screen k := rfl
@[simp] theorem State.port_withReports (s : State) (v : List Report) (n : PortId) : (s.withReports v).port n = s.port n := rfl
@[simp] theorem State.engState_withReports (s : State) (v : List Report) (k : ScreenId) : (s.withReports v).engState k = s.engState k := rfl
@[simp] theorem State.screen_withFreeIndex (s : State) (v : Nat) (k : ScreenId) : (s.withFreeIndex v).screen k = s.screen k := rfl
@[simp] theorem State.port_withFreeIndex (s : State) (v : Nat) (n : PortId) : (s.withFreeIndex v).port n = s.port n := rfl
@[simp] theorem State.engState_withFreeIndex (s : State) (v : Nat) (k : ScreenId) : (s.withFreeIndex v).engState k = s.engState k := rfl
@[simp] theorem State.screen_withPending (s : State) (v : List Instr) (k : ScreenId) : (s.withPending v).screen k = s.screen k := rfl
@[simp] theorem State.port_withPending (s : State) (v : List Instr) (n : PortId) : (s.withPending v).port n = s.port n := rfl
@[simp] theorem State.engState_withPending (s : State) (v : List Instr) (k : ScreenId) : (s.withPending v).engState k = s.engState k := rfl
@[simp] theorem State.screen_withPorts (s : State) (v : Vector Port 4) (k : ScreenId) : (s.withPorts v).screen k = s.screen k := rfl
@[simp] theorem State.engState_withPorts (s : State) (v : Vector Port 4) (k : ScreenId) : (s.withPorts v).engState k = s.engState k := rfl
@[simp] theorem State.port_withScreens (s : State) (v : Vector Screen 24) (n : PortId) : (s.withScreens v).port n = s.port n := rfl

@[simp] theorem State.withQueue_inReset (s : State) (q : List Segment) : (s.withQueue q).inReset = s.inReset := rfl
@[simp] theorem State.withRolls_inReset (s : State) (r : List Roll) : (s.withRolls r).inReset = s.inReset := rfl
@[simp] theorem State.withQueue_pos (s : State) (q : List Segment) : (s.withQueue q).pos = s.pos := rfl
@[simp] theorem State.withRolls_pos (s : State) (r : List Roll) : (s.withRolls r).pos = s.pos := rfl
@[simp] theorem State.withQueue_line (s : State) (q : List Segment) : (s.withQueue q).line = s.line := rfl
@[simp] theorem State.withRolls_line (s : State) (r : List Roll) : (s.withRolls r).line = s.line := rfl
@[simp] theorem State.withQueue_phase (s : State) (q : List Segment) : (s.withQueue q).phase = s.phase := rfl
@[simp] theorem State.withRolls_phase (s : State) (r : List Roll) : (s.withRolls r).phase = s.phase := rfl
@[simp] theorem State.withQueue_planned (s : State) (q : List Segment) : (s.withQueue q).planned = s.planned := rfl
@[simp] theorem State.withRolls_planned (s : State) (r : List Roll) : (s.withRolls r).planned = s.planned := rfl
@[simp] theorem State.withQueue_ring (s : State) (q : List Segment) : (s.withQueue q).ring = s.ring := rfl
@[simp] theorem State.withRolls_ring (s : State) (r : List Roll) : (s.withRolls r).ring = s.ring := rfl
@[simp] theorem State.withQueue_oven (s : State) (q : List Segment) : (s.withQueue q).oven = s.oven := rfl
@[simp] theorem State.withRolls_oven (s : State) (r : List Roll) : (s.withRolls r).oven = s.oven := rfl
@[simp] theorem State.withQueue_cure (s : State) (q : List Segment) : (s.withQueue q).cure = s.cure := rfl
@[simp] theorem State.withRolls_cure (s : State) (r : List Roll) : (s.withRolls r).cure = s.cure := rfl
@[simp] theorem State.withQueue_reports (s : State) (q : List Segment) : (s.withQueue q).reports = s.reports := rfl
@[simp] theorem State.withRolls_reports (s : State) (r : List Roll) : (s.withRolls r).reports = s.reports := rfl
@[simp] theorem State.withQueue_freeIndex (s : State) (q : List Segment) : (s.withQueue q).freeIndex = s.freeIndex := rfl
@[simp] theorem State.withRolls_freeIndex (s : State) (r : List Roll) : (s.withRolls r).freeIndex = s.freeIndex := rfl
@[simp] theorem State.withQueue_pending (s : State) (q : List Segment) : (s.withQueue q).pending = s.pending := rfl
@[simp] theorem State.withRolls_pending (s : State) (r : List Roll) : (s.withRolls r).pending = s.pending := rfl
@[simp] theorem State.withQueue_ports (s : State) (q : List Segment) : (s.withQueue q).ports = s.ports := rfl
@[simp] theorem State.withRolls_ports (s : State) (r : List Roll) : (s.withRolls r).ports = s.ports := rfl
@[simp] theorem State.withQueue_web (s : State) (q : List Segment) : (s.withQueue q).web = { s.web with queue := q } := rfl
@[simp] theorem State.withRolls_web (s : State) (r : List Roll) : (s.withRolls r).web = { s.web with rolls := r } := rfl
@[simp] theorem State.withQueue_screens (s : State) (q : List Segment) : (s.withQueue q).screens = s.screens := rfl
@[simp] theorem State.withRolls_screens (s : State) (r : List Roll) : (s.withRolls r).screens = s.screens := rfl

@[simp] theorem State.screen_withQueue (s : State) (v : List Segment) (k : ScreenId) : (s.withQueue v).screen k = s.screen k := rfl
@[simp] theorem State.port_withQueue (s : State) (v : List Segment) (n : PortId) : (s.withQueue v).port n = s.port n := rfl
@[simp] theorem State.engState_withQueue (s : State) (v : List Segment) (k : ScreenId) : (s.withQueue v).engState k = s.engState k := rfl
@[simp] theorem State.screen_withRolls (s : State) (v : List Roll) (k : ScreenId) : (s.withRolls v).screen k = s.screen k := rfl
@[simp] theorem State.port_withRolls (s : State) (v : List Roll) (n : PortId) : (s.withRolls v).port n = s.port n := rfl
@[simp] theorem State.engState_withRolls (s : State) (v : List Roll) (k : ScreenId) : (s.withRolls v).engState k = s.engState k := rfl

/-! ### Sets of screens -/

@[simp] theorem inSet_zero (k : ScreenId) : inSet 0#24 k = false := by simp [inSet]

/-- Adding screen j puts screen j into a set, and no other. -/
theorem inSet_addTo (j k : ScreenId) (set : ScreenSet) : inSet (addTo set j) k = (inSet set k || decide (k = j)) := by
  simp only [inSet, addTo, BitVec.getLsbD_or, BitVec.getLsbD_twoPow]
  congr 1
  by_cases h : k = j
  · subst h; simp
  · have : ¬ j.val = k.val := fun e => h (Fin.ext e.symm)
    simp [h, this]

/-- Dropping screen j takes screen j out of a set, and no other. -/
theorem inSet_dropFrom (j k : ScreenId) (set : ScreenSet) :
    inSet (dropFrom set j) k = (inSet set k && decide (k ≠ j)) := by
  simp only [inSet, dropFrom, BitVec.getLsbD_and, BitVec.getLsbD_not, BitVec.getLsbD_twoPow]
  by_cases h : k = j
  · subst h; simp
  · have : ¬ j.val = k.val := fun e => h (Fin.ext e.symm)
    simp [h, this]

/-- Sets with the same screens are equal. -/
theorem screenSet_ext {a b : ScreenSet} (h : ∀ k, inSet a k = inSet b k) : a = b :=
  BitVec.eq_of_getLsbD_eq fun i hi => h ⟨i, hi⟩

theorem mem_allScreens (k : ScreenId) : k ∈ allScreens := List.mem_finRange k

theorem inSet_foldl (test : ScreenId → Bool) (l : List ScreenId) (set : ScreenSet) (k : ScreenId) :
    inSet (l.foldl (fun u j => if test j then addTo u j else u) set) k = (inSet set k || (decide (k ∈ l) && test k)) := by
  induction l generalizing set with
  | nil => simp
  | cons j l ih =>
    rw [List.foldl_cons, ih]
    by_cases hj : k = j
    · subst hj; cases h : test k <;> simp [inSet_addTo]
    · cases h : test j <;> simp [inSet_addTo, hj]

/-- The set of the screens of which a test holds has exactly those. -/
theorem inSet_screensWhere (test : ScreenId → Bool) (k : ScreenId) : inSet (screensWhere test) k = test k := by
  simp [screensWhere, inSet_foldl, mem_allScreens]

/-- A set is known by its screens. -/
theorem screensWhere_eq {test : ScreenId → Bool} {set : ScreenSet} (h : ∀ k, inSet set k = test k) :
    screensWhere test = set := screenSet_ext fun k => by rw [inSet_screensWhere, h]

/-! ### The segment queue -/

/-- A segment that contains a coordinate is queued and holds it. -/
theorem containing_some {q : List Segment} {c : Int} {g : Segment} (h : containing q c = some g) :
    g ∈ q ∧ g.start ≤ c ∧ c < g.start + g.length := by
  have h1 := List.mem_of_find?_eq_some h
  have h2 := List.find?_some h
  simp only [Segment.holds, Bool.and_eq_true, decide_eq_true_eq] at h2
  exact ⟨h1, h2⟩

/-- No segment contains a coordinate exactly when none holds it. -/
theorem containing_none {q : List Segment} {c : Int} :
    containing q c = none ↔ ∀ g ∈ q, ¬ (g.start ≤ c ∧ c < g.start + g.length) := by
  simp [containing, List.find?_eq_none, Segment.holds]

/-- The segment of a seq is queued and has it. -/
theorem segmentOf_some {q : List Segment} {n : Nat} {g : Segment} (h : segmentOf q n = some g) : g ∈ q ∧ g.seq = n :=
  ⟨List.mem_of_find?_eq_some h, by simpa using List.find?_some h⟩

theorem segmentOf_none {q : List Segment} {n : Nat} : segmentOf q n = none ↔ ∀ g ∈ q, g.seq ≠ n := by
  simp [segmentOf, List.find?_eq_none]

/-! ### Groups -/

/-- Screen a names the group of screen k: a present anchor at or before k, with no present anchor between. -/
theorem anchorOf_some {t : Vector Screen 24} {k a : ScreenId} (h : anchorOf t k = some a) :
    t[k].present = true ∧ a ≤ k ∧ t[a].present = true ∧ t[a].kind = .anchor := by
  unfold anchorOf at h
  split at h
  · rename_i hp
    have := List.mem_of_getLast? h
    simp only [List.mem_filter, Bool.and_eq_true, decide_eq_true_eq, beq_iff_eq] at this
    exact ⟨hp, this.2.1.1, this.2.1.2, this.2.2⟩
  · cases h

/-- An ABSENT screen belongs to no group. -/
theorem anchorOf_absent {t : Vector Screen 24} {k : ScreenId} (h : t[k].present = false) : anchorOf t k = none := by
  unfold anchorOf; rw [h]; rfl

theorem mem_membersOf {t : Vector Screen 24} {a k : ScreenId} : k ∈ membersOf t a ↔ anchorOf t k = some a := by
  simp [membersOf, mem_allScreens]

theorem mem_relativesOf {t : Vector Screen 24} {a k : ScreenId} :
    k ∈ relativesOf t a ↔ anchorOf t k = some a ∧ k ≠ a := by
  simp [relativesOf, mem_membersOf]

@[simp] theorem effTrim_zero (t : Vector Screen 24) : effTrim t 0 = 0 := by simp [effTrim]

/-! ### Numbers -/

/-- A clamp stays within its bounds. -/
theorem clamp_mem {low high : Int} (h : low ≤ high) (v : Int) : low ≤ clamp low high v ∧ clamp low high v ≤ high := by
  unfold clamp; omega

/-- A clamp leaves a value within its bounds. -/
theorem clamp_of_mem {low high v : Int} (h1 : low ≤ v) (h2 : v ≤ high) : clamp low high v = v := by
  unfold clamp; omega

/-- The staged repeat lies in its range for settings in theirs (R33). -/
theorem stagedRepeat_mem {lScr stretch : Int} (h1 : 40000 ≤ lScr) (h2 : lScr ≤ 204800) (h3 : -2048 ≤ stretch)
    (h4 : stretch ≤ 2048) : 38750 ≤ stagedRepeat lScr stretch ∧ stagedRepeat lScr stretch ≤ 211200 := by
  have a1 : -(lScr * 2048) ≤ lScr * stretch := by nlinarith
  have a2 : lScr * stretch ≤ lScr * 2048 := by nlinarith
  unfold stagedRepeat
  constructor <;> omega

end Sys2Proof.Machine
end

