-- ==== Sys2Proof/Laws/Flags.lean ====
section
/-! SUPPORT. What raising a kind, evaluating the attention lines and evaluating the hold output can do, said once. -/

namespace Sys2Proof.Machine

/-! ### Sets of kinds -/

theorem EventKind.toCode_lt (e : EventKind) : e.toCode < 17 := by cases e <;> decide

theorem EventKind.toCode_inj {e e' : EventKind} : e.toCode = e'.toCode ↔ e = e' := by
  constructor
  · cases e <;> cases e' <;> first | (intro _; rfl) | (intro h; revert h; decide)
  · rintro rfl; rfl

/-- Every bit of a set of kinds is the bit of some kind. -/
theorem EventKind.exists_code {i : Nat} (h : i < 17) : ∃ e : EventKind, e.toCode = i := by
  have : ∀ i : Fin 17, ∃ e ∈ [EventKind.reportsWaiting, .faultsWaiting, .webStill, .ringLost, .segmentAtCamera,
      .screenFault, .trimAtLimit, .reportLost, .segmentEvicted, .zoneStale, .zoneDead, .cureFault, .rollClosed,
      .drainDone, .motionClamp, .seqExhausted, .rollTableFull], e.toCode = i.val := by decide
  obtain ⟨e, -, he⟩ := this ⟨i, h⟩
  exact ⟨e, he⟩

/-- Sets with the same kinds are equal. -/
theorem kindSet_ext {a b : KindSet} (h : ∀ e, hasKind a e ↔ hasKind b e) : a = b := by
  apply BitVec.eq_of_getLsbD_eq
  intro i hi
  obtain ⟨e, rfl⟩ := EventKind.exists_code hi
  exact Bool.eq_iff_iff.mpr (h e)

@[simp] theorem hasKind_or (a b : KindSet) (e : EventKind) : hasKind (a ||| b) e ↔ hasKind a e ∨ hasKind b e := by
  simp [hasKind]

@[simp] theorem hasKind_and (a b : KindSet) (e : EventKind) : hasKind (a &&& b) e ↔ hasKind a e ∧ hasKind b e := by
  simp [hasKind]

@[simp] theorem hasKind_not (a : KindSet) (e : EventKind) : hasKind (~~~a) e ↔ ¬ hasKind a e := by
  simp [hasKind, e.toCode_lt]

@[simp] theorem hasKind_zero (e : EventKind) : ¬ hasKind 0#17 e := by simp [hasKind]

@[simp] theorem hasKind_bit (e e' : EventKind) : hasKind e.bit e' ↔ e' = e := by
  rw [hasKind, EventKind.bit, BitVec.getLsbD_twoPow, Bool.and_eq_true, decide_eq_true_eq, decide_eq_true_eq,
    EventKind.toCode_inj]
  exact ⟨fun h => h.2.symm, fun h => ⟨e.toCode_lt, h.symm⟩⟩

/-- The visible set of a role holds the kinds that the role may see (R188). -/
@[simp] theorem hasKind_visible (r : Role) (e : EventKind) : hasKind (visible r) e ↔ r.sees e := by
  cases r <;> cases e <;> simp [hasKind, visible, kindSet, Role.sees, EventKind.bit, EventKind.toCode]

/-- The level set holds the level kinds whose conditions hold (R186). -/
@[simp] theorem hasKind_levels (s : State) (e : EventKind) : hasKind (levels s) e ↔ s.levelHolds e := by
  unfold levels
  simp only [hasKind_or]
  cases e <;> simp only [State.levelHolds] <;> split_ifs <;> simp_all

/-- The pending set of a port holds the kinds that are pending on it (R186, R189). -/
theorem hasKind_pendingSet (s : State) (n : PortId) (e : EventKind) : hasKind (s.pendingSet n) e ↔ s.pendingOn n e := by
  simp [State.pendingSet, State.pendingOn, and_comm]

/-- Two sets share a kind exactly when they meet. -/
theorem kindSet_meet (a b : KindSet) : (a &&& b != 0) = true ↔ ∃ e, hasKind a e ∧ hasKind b e := by
  rw [bne_iff_ne, ne_eq]
  constructor
  · intro h
    by_contra hn
    apply h
    apply kindSet_ext
    intro e
    simp only [hasKind_and]
    constructor
    · intro he; exact absurd ⟨e, he⟩ hn
    · intro he; exact absurd he (hasKind_zero e)
  · rintro ⟨e, he⟩ h
    have : hasKind (a &&& b) e := (hasKind_and a b e).mpr he
    rw [h] at this
    exact hasKind_zero e this

/-- The line condition of R190. -/
theorem State.lineCondition_iff (s : State) (n : PortId) :
    s.lineCondition n = true ↔ ∃ e, s.pendingOn n e ∧ hasKind (s.port n).enabled e := by
  simp only [State.lineCondition, kindSet_meet, hasKind_pendingSet]

/-! ### Raising a kind (R187) -/

@[simp] theorem State.latch_inReset (e : EventKind) (s : State) : (s.latch e).inReset = s.inReset := State.mapPorts_inReset _ _
@[simp] theorem State.latch_pos (e : EventKind) (s : State) : (s.latch e).pos = s.pos := State.mapPorts_pos _ _
@[simp] theorem State.latch_line (e : EventKind) (s : State) : (s.latch e).line = s.line := State.mapPorts_line _ _
@[simp] theorem State.latch_screens (e : EventKind) (s : State) : (s.latch e).screens = s.screens := State.mapPorts_screens _ _
@[simp] theorem State.latch_phase (e : EventKind) (s : State) : (s.latch e).phase = s.phase := State.mapPorts_phase _ _
@[simp] theorem State.latch_planned (e : EventKind) (s : State) : (s.latch e).planned = s.planned := State.mapPorts_planned _ _
@[simp] theorem State.latch_ring (e : EventKind) (s : State) : (s.latch e).ring = s.ring := State.mapPorts_ring _ _
@[simp] theorem State.latch_web (e : EventKind) (s : State) : (s.latch e).web = s.web := State.mapPorts_web _ _
@[simp] theorem State.latch_oven (e : EventKind) (s : State) : (s.latch e).oven = s.oven := State.mapPorts_oven _ _
@[simp] theorem State.latch_cure (e : EventKind) (s : State) : (s.latch e).cure = s.cure := State.mapPorts_cure _ _
@[simp] theorem State.latch_reports (e : EventKind) (s : State) : (s.latch e).reports = s.reports := State.mapPorts_reports _ _
@[simp] theorem State.latch_freeIndex (e : EventKind) (s : State) : (s.latch e).freeIndex = s.freeIndex := State.mapPorts_freeIndex _ _
@[simp] theorem State.latch_pending (e : EventKind) (s : State) : (s.latch e).pending = s.pending := State.mapPorts_pending _ _

@[simp] theorem State.latchIf_inReset (c : Bool) (e : EventKind) (s : State) : (s.latchIf c e).inReset = s.inReset := by
  cases c
  · rfl
  · exact State.latch_inReset e s
@[simp] theorem State.latchIf_pos (c : Bool) (e : EventKind) (s : State) : (s.latchIf c e).pos = s.pos := by
  cases c
  · rfl
  · exact State.latch_pos e s
@[simp] theorem State.latchIf_line (c : Bool) (e : EventKind) (s : State) : (s.latchIf c e).line = s.line := by
  cases c
  · rfl
  · exact State.latch_line e s
@[simp] theorem State.latchIf_screens (c : Bool) (e : EventKind) (s : State) : (s.latchIf c e).screens = s.screens := by
  cases c
  · rfl
  · exact State.latch_screens e s
@[simp] theorem State.latchIf_phase (c : Bool) (e : EventKind) (s : State) : (s.latchIf c e).phase = s.phase := by
  cases c
  · rfl
  · exact State.latch_phase e s
@[simp] theorem State.latchIf_planned (c : Bool) (e : EventKind) (s : State) : (s.latchIf c e).planned = s.planned := by
  cases c
  · rfl
  · exact State.latch_planned e s
@[simp] theorem State.latchIf_ring (c : Bool) (e : EventKind) (s : State) : (s.latchIf c e).ring = s.ring := by
  cases c
  · rfl
  · exact State.latch_ring e s
@[simp] theorem State.latchIf_web (c : Bool) (e : EventKind) (s : State) : (s.latchIf c e).web = s.web := by
  cases c
  · rfl
  · exact State.latch_web e s
@[simp] theorem State.latchIf_oven (c : Bool) (e : EventKind) (s : State) : (s.latchIf c e).oven = s.oven := by
  cases c
  · rfl
  · exact State.latch_oven e s
@[simp] theorem State.latchIf_cure (c : Bool) (e : EventKind) (s : State) : (s.latchIf c e).cure = s.cure := by
  cases c
  · rfl
  · exact State.latch_cure e s
@[simp] theorem State.latchIf_reports (c : Bool) (e : EventKind) (s : State) : (s.latchIf c e).reports = s.reports := by
  cases c
  · rfl
  · exact State.latch_reports e s
@[simp] theorem State.latchIf_freeIndex (c : Bool) (e : EventKind) (s : State) : (s.latchIf c e).freeIndex = s.freeIndex := by
  cases c
  · rfl
  · exact State.latch_freeIndex e s
@[simp] theorem State.latchIf_pending (c : Bool) (e : EventKind) (s : State) : (s.latchIf c e).pending = s.pending := by
  cases c
  · rfl
  · exact State.latch_pending e s

/-- A raise adds its kind to the latched part of every port whose role may see it, and changes nothing else. -/
theorem State.port_latch (e : EventKind) (s : State) (n : PortId) :
    (s.latch e).port n = { s.port n with latched := (s.port n).latched ||| (e.bit &&& visible (s.port n).role) } := by
  simp [State.latch]

theorem State.port_latchIf (c : Bool) (e : EventKind) (s : State) (n : PortId) :
    (s.latchIf c e).port n = if c then
      { s.port n with latched := (s.port n).latched ||| (e.bit &&& visible (s.port n).role) } else s.port n := by
  cases c
  · rfl
  · exact State.port_latch e s n

theorem State.hasKind_latch (e e' : EventKind) (s : State) (n : PortId) :
    hasKind ((s.latch e).port n).latched e' ↔ hasKind (s.port n).latched e' ∨ (e' = e ∧ (s.port n).role.sees e') := by
  rw [State.port_latch]
  simp only [hasKind_or, hasKind_and, hasKind_bit, hasKind_visible]

theorem State.hasKind_latchIf (c : Bool) (e e' : EventKind) (s : State) (n : PortId) :
    hasKind ((s.latchIf c e).port n).latched e' ↔
      hasKind (s.port n).latched e' ∨ (c = true ∧ e' = e ∧ (s.port n).role.sees e') := by
  cases c
  · simp [State.latchIf]
  · simp only [State.latchIf, if_true, State.hasKind_latch, true_and]

@[simp] theorem State.screen_latch (e : EventKind) (s : State) (k : ScreenId) : (s.latch e).screen k = s.screen k :=
  State.screen_mapPorts _ s k

@[simp] theorem State.screen_latchIf (c : Bool) (e : EventKind) (s : State) (k : ScreenId) :
    (s.latchIf c e).screen k = s.screen k := by
  cases c
  · rfl
  · exact State.screen_latch e s k

/-! ### Evaluating the lines (R190) -/

@[simp] theorem State.evalLines_inReset (s : State) : s.evalLines.inReset = s.inReset := State.mapPorts_inReset _ _
@[simp] theorem State.evalLines_pos (s : State) : s.evalLines.pos = s.pos := State.mapPorts_pos _ _
@[simp] theorem State.evalLines_line (s : State) : s.evalLines.line = s.line := State.mapPorts_line _ _
@[simp] theorem State.evalLines_screens (s : State) : s.evalLines.screens = s.screens := State.mapPorts_screens _ _
@[simp] theorem State.evalLines_phase (s : State) : s.evalLines.phase = s.phase := State.mapPorts_phase _ _
@[simp] theorem State.evalLines_planned (s : State) : s.evalLines.planned = s.planned := State.mapPorts_planned _ _
@[simp] theorem State.evalLines_ring (s : State) : s.evalLines.ring = s.ring := State.mapPorts_ring _ _
@[simp] theorem State.evalLines_web (s : State) : s.evalLines.web = s.web := State.mapPorts_web _ _
@[simp] theorem State.evalLines_oven (s : State) : s.evalLines.oven = s.oven := State.mapPorts_oven _ _
@[simp] theorem State.evalLines_cure (s : State) : s.evalLines.cure = s.cure := State.mapPorts_cure _ _
@[simp] theorem State.evalLines_reports (s : State) : s.evalLines.reports = s.reports := State.mapPorts_reports _ _
@[simp] theorem State.evalLines_freeIndex (s : State) : s.evalLines.freeIndex = s.freeIndex := State.mapPorts_freeIndex _ _
@[simp] theorem State.evalLines_pending (s : State) : s.evalLines.pending = s.pending := State.mapPorts_pending _ _

@[simp] theorem State.screen_evalLines (s : State) (k : ScreenId) : s.evalLines.screen k = s.screen k :=
  State.screen_mapPorts _ s k

/-- Evaluating the lines writes every port's line, and nothing else. -/
theorem State.port_evalLines (s : State) (n : PortId) :
    s.evalLines.port n = { s.port n with line := s.lineCondition n } := by
  simp [State.evalLines]

/-- Out of reset the lines follow their condition once they are evaluated. -/
theorem State.evalLines_follow (s : State) (h : s.inReset = false) : s.evalLines.LinesFollow := by
  intro n
  have hp : ∀ e, s.evalLines.pendingOn n e ↔ s.pendingOn n e := by
    intro e
    simp only [State.pendingOn, State.port_evalLines]
    cases e <;> simp [State.levelHolds]
  simp only [State.port_evalLines, State.evalLines_inReset, h, true_and, hp, State.lineCondition_iff]

/-! ### Evaluating the hold output (R84) -/

@[simp] theorem State.evalHold_inReset (s : State) : s.evalHold.inReset = s.inReset := rfl
@[simp] theorem State.evalHold_pos (s : State) : s.evalHold.pos = s.pos := rfl
@[simp] theorem State.evalHold_line (s : State) : s.evalHold.line = s.line := rfl
@[simp] theorem State.evalHold_screens (s : State) : s.evalHold.screens = s.screens := rfl
@[simp] theorem State.evalHold_phase (s : State) : s.evalHold.phase = s.phase := rfl
@[simp] theorem State.evalHold_planned (s : State) : s.evalHold.planned = s.planned := rfl
@[simp] theorem State.evalHold_web (s : State) : s.evalHold.web = s.web := rfl
@[simp] theorem State.evalHold_oven (s : State) : s.evalHold.oven = s.oven := rfl
@[simp] theorem State.evalHold_cure (s : State) : s.evalHold.cure = s.cure := rfl
@[simp] theorem State.evalHold_reports (s : State) : s.evalHold.reports = s.reports := rfl
@[simp] theorem State.evalHold_freeIndex (s : State) : s.evalHold.freeIndex = s.freeIndex := rfl
@[simp] theorem State.evalHold_pending (s : State) : s.evalHold.pending = s.pending := rfl
@[simp] theorem State.evalHold_ports (s : State) : s.evalHold.ports = s.ports := rfl
@[simp] theorem State.evalHold_ring (s : State) : s.evalHold.ring = { s.ring with hold := s.holdCondition } := rfl
@[simp] theorem State.screen_evalHold (s : State) (k : ScreenId) : s.evalHold.screen k = s.screen k := rfl
@[simp] theorem State.port_evalHold (s : State) (n : PortId) : s.evalHold.port n = s.port n := rfl

/-- The hold condition of R84. -/
theorem State.holdCondition_iff (s : State) :
    s.holdCondition = true ↔
      s.ring.state = .lost ∨ (s.line.holdOnFault = true ∧ ∃ k, inSet s.planned k = true ∧ s.engState k = .faulted) := by
  simp [State.holdCondition, mem_allScreens]

/-- HOLD follows its condition once it is evaluated. -/
theorem State.evalHold_follow (s : State) : s.evalHold.HoldFollows := s.holdCondition_iff

/-- HOLD rests on the ring state, hold on fault, the planned set and the engagement states alone. -/
theorem State.holdFollows_congr {s t : State} (hr : t.ring.state = s.ring.state) (hh : t.ring.hold = s.ring.hold)
    (hl : t.line.holdOnFault = s.line.holdOnFault) (hp : t.planned = s.planned)
    (he : ∀ k, t.engState k = s.engState k) (h : s.HoldFollows) : t.HoldFollows := by
  unfold State.HoldFollows at *
  simpa only [hr, hh, hl, hp, he] using h

end Sys2Proof.Machine
end

