-- ==== Sys2Proof/Laws/Frames.lean ====
section
/-! SUPPORT. How a frame ends and a request is answered, said once. -/

namespace Sys2Proof.Machine

/-! ### holdReply -/

@[simp] theorem State.holdReply_inReset (n : PortId) (kind tag : Byte) (a : Answer) (s : State) :
    (s.holdReply n kind tag a).inReset = s.inReset := rfl
@[simp] theorem State.holdReply_pos (n : PortId) (kind tag : Byte) (a : Answer) (s : State) :
    (s.holdReply n kind tag a).pos = s.pos := rfl
@[simp] theorem State.holdReply_line (n : PortId) (kind tag : Byte) (a : Answer) (s : State) :
    (s.holdReply n kind tag a).line = s.line := rfl
@[simp] theorem State.holdReply_screens (n : PortId) (kind tag : Byte) (a : Answer) (s : State) :
    (s.holdReply n kind tag a).screens = s.screens := rfl
@[simp] theorem State.holdReply_phase (n : PortId) (kind tag : Byte) (a : Answer) (s : State) :
    (s.holdReply n kind tag a).phase = s.phase := rfl
@[simp] theorem State.holdReply_planned (n : PortId) (kind tag : Byte) (a : Answer) (s : State) :
    (s.holdReply n kind tag a).planned = s.planned := rfl
@[simp] theorem State.holdReply_ring (n : PortId) (kind tag : Byte) (a : Answer) (s : State) :
    (s.holdReply n kind tag a).ring = s.ring := rfl
@[simp] theorem State.holdReply_web (n : PortId) (kind tag : Byte) (a : Answer) (s : State) :
    (s.holdReply n kind tag a).web = s.web := rfl
@[simp] theorem State.holdReply_oven (n : PortId) (kind tag : Byte) (a : Answer) (s : State) :
    (s.holdReply n kind tag a).oven = s.oven := rfl
@[simp] theorem State.holdReply_cure (n : PortId) (kind tag : Byte) (a : Answer) (s : State) :
    (s.holdReply n kind tag a).cure = s.cure := rfl
@[simp] theorem State.holdReply_reports (n : PortId) (kind tag : Byte) (a : Answer) (s : State) :
    (s.holdReply n kind tag a).reports = s.reports := rfl
@[simp] theorem State.holdReply_freeIndex (n : PortId) (kind tag : Byte) (a : Answer) (s : State) :
    (s.holdReply n kind tag a).freeIndex = s.freeIndex := rfl
@[simp] theorem State.holdReply_pending (n : PortId) (kind tag : Byte) (a : Answer) (s : State) :
    (s.holdReply n kind tag a).pending = s.pending := rfl
@[simp] theorem State.screen_holdReply (n : PortId) (kind tag : Byte) (a : Answer) (s : State) (k : ScreenId) :
    (s.holdReply n kind tag a).screen k = s.screen k := rfl
@[simp] theorem State.engState_holdReply (n : PortId) (kind tag : Byte) (a : Answer) (s : State) (k : ScreenId) :
    (s.holdReply n kind tag a).engState k = s.engState k := rfl

/-! ### receiveFrame -/

@[simp] theorem State.receiveFrame_inReset (n : PortId) (kind tag : Byte) (payload : List Word) (s : State) :
    (s.receiveFrame n kind tag payload).inReset = s.inReset := rfl
@[simp] theorem State.receiveFrame_pos (n : PortId) (kind tag : Byte) (payload : List Word) (s : State) :
    (s.receiveFrame n kind tag payload).pos = s.pos := rfl
@[simp] theorem State.receiveFrame_line (n : PortId) (kind tag : Byte) (payload : List Word) (s : State) :
    (s.receiveFrame n kind tag payload).line = s.line := rfl
@[simp] theorem State.receiveFrame_screens (n : PortId) (kind tag : Byte) (payload : List Word) (s : State) :
    (s.receiveFrame n kind tag payload).screens = s.screens := rfl
@[simp] theorem State.receiveFrame_phase (n : PortId) (kind tag : Byte) (payload : List Word) (s : State) :
    (s.receiveFrame n kind tag payload).phase = s.phase := rfl
@[simp] theorem State.receiveFrame_planned (n : PortId) (kind tag : Byte) (payload : List Word) (s : State) :
    (s.receiveFrame n kind tag payload).planned = s.planned := rfl
@[simp] theorem State.receiveFrame_ring (n : PortId) (kind tag : Byte) (payload : List Word) (s : State) :
    (s.receiveFrame n kind tag payload).ring = s.ring := rfl
@[simp] theorem State.receiveFrame_web (n : PortId) (kind tag : Byte) (payload : List Word) (s : State) :
    (s.receiveFrame n kind tag payload).web = s.web := rfl
@[simp] theorem State.receiveFrame_oven (n : PortId) (kind tag : Byte) (payload : List Word) (s : State) :
    (s.receiveFrame n kind tag payload).oven = s.oven := rfl
@[simp] theorem State.receiveFrame_cure (n : PortId) (kind tag : Byte) (payload : List Word) (s : State) :
    (s.receiveFrame n kind tag payload).cure = s.cure := rfl
@[simp] theorem State.receiveFrame_reports (n : PortId) (kind tag : Byte) (payload : List Word) (s : State) :
    (s.receiveFrame n kind tag payload).reports = s.reports := rfl
@[simp] theorem State.receiveFrame_freeIndex (n : PortId) (kind tag : Byte) (payload : List Word) (s : State) :
    (s.receiveFrame n kind tag payload).freeIndex = s.freeIndex := rfl
@[simp] theorem State.receiveFrame_pending (n : PortId) (kind tag : Byte) (payload : List Word) (s : State) :
    (s.receiveFrame n kind tag payload).pending = s.pending := rfl
@[simp] theorem State.screen_receiveFrame (n : PortId) (kind tag : Byte) (payload : List Word) (s : State) (k : ScreenId) :
    (s.receiveFrame n kind tag payload).screen k = s.screen k := rfl
@[simp] theorem State.engState_receiveFrame (n : PortId) (kind tag : Byte) (payload : List Word) (s : State) (k : ScreenId) :
    (s.receiveFrame n kind tag payload).engState k = s.engState k := rfl

/-- A held reply is written into its port alone, and replaces nothing but the reply (R166). -/
theorem State.port_holdReply (n m : PortId) (kind tag : Byte) (a : Answer) (s : State) :
    (s.holdReply n kind tag a).port m =
      if m = n then
        { s.port n with held := { kind := kind, tag := tag, status := a.code, index := a.index, words := a.words } }
      else s.port m :=
  State.port_modPort n m _ s

/-- A received frame is written into its port alone. -/
theorem State.port_receiveFrame (n m : PortId) (kind tag : Byte) (payload : List Word) (s : State) :
    (s.receiveFrame n kind tag payload).port m =
      if m = n then (s.port n).received kind tag payload else s.port m :=
  State.port_modPort n m _ s

/-! ### Ports -/

@[simp] theorem Port.release_role (q : Port) (b : Fin 16) (w : Word) : (q.release b w).role = q.role := by
  unfold Port.release Port.finishFrame; cases q.rx <;> first | rfl | (dsimp only; split_ifs <;> rfl)
@[simp] theorem Port.release_latched (q : Port) (b : Fin 16) (w : Word) : (q.release b w).latched = q.latched := by
  unfold Port.release Port.finishFrame; cases q.rx <;> first | rfl | (dsimp only; split_ifs <;> rfl)
@[simp] theorem Port.release_enabled (q : Port) (b : Fin 16) (w : Word) : (q.release b w).enabled = q.enabled := by
  unfold Port.release Port.finishFrame; cases q.rx <;> first | rfl | (dsimp only; split_ifs <;> rfl)
@[simp] theorem Port.release_line (q : Port) (b : Fin 16) (w : Word) : (q.release b w).line = q.line := by
  unfold Port.release Port.finishFrame; cases q.rx <;> first | rfl | (dsimp only; split_ifs <;> rfl)
@[simp] theorem Port.release_sel (q : Port) (b : Fin 16) (w : Word) : (q.release b w).sel = false := by
  unfold Port.release Port.finishFrame; cases q.rx <;> first | rfl | (dsimp only; split_ifs <;> rfl)
@[simp] theorem Port.release_fetch (q : Port) (b : Fin 16) (w : Word) : (q.release b w).fetch = none := by
  unfold Port.release Port.finishFrame; cases q.rx <;> first | rfl | (dsimp only; split_ifs <;> rfl)
@[simp] theorem Port.release_rx (q : Port) (b : Fin 16) (w : Word) : (q.release b w).rx = .idle := by
  unfold Port.release Port.finishFrame; cases q.rx <;> first | rfl | (dsimp only; split_ifs <;> rfl)

@[simp] theorem Port.received_role (q : Port) (k t : Byte) (p : List Word) : (q.received k t p).role = q.role := by
  unfold Port.received; split_ifs <;> simp
@[simp] theorem Port.received_latched (q : Port) (k t : Byte) (p : List Word) :
    (q.received k t p).latched = q.latched := by
  unfold Port.received; split_ifs <;> simp
@[simp] theorem Port.received_enabled (q : Port) (k t : Byte) (p : List Word) :
    (q.received k t p).enabled = q.enabled := by
  unfold Port.received; split_ifs <;> simp
@[simp] theorem Port.received_line (q : Port) (k t : Byte) (p : List Word) : (q.received k t p).line = q.line := by
  unfold Port.received; split_ifs <;> simp

/-- What a port that stands in IDLE holds once it has received a whole frame of at most 64 payload words. -/
theorem Port.received_idle {q : Port} (h : q.rx = .idle) (k t : Byte) {p : List Word} (hp : p.length ≤ 64) :
    q.received k t p =
      { q with sel := true, rx := .done, kind := some k, tag := some t, count := BitVec.ofNat 16 p.length, payload := p,
               check := crc16 (requestBody k t p), fetch := none, dataOut := 0 } := by
  unfold Port.received Port.release
  rw [if_pos hp]
  cases hs : q.sel <;> simp [h]

/-! ### The attention sets and lines across a frame -/

@[simp] theorem State.latched_receiveFrame (n m : PortId) (k t : Byte) (p : List Word) (s : State) :
    ((s.receiveFrame n k t p).port m).latched = (s.port m).latched := by
  rw [State.port_receiveFrame]; split
  · rename_i h; subst h; simp
  · rfl
@[simp] theorem State.enabled_receiveFrame (n m : PortId) (k t : Byte) (p : List Word) (s : State) :
    ((s.receiveFrame n k t p).port m).enabled = (s.port m).enabled := by
  rw [State.port_receiveFrame]; split
  · rename_i h; subst h; simp
  · rfl
@[simp] theorem State.role_receiveFrame (n m : PortId) (k t : Byte) (p : List Word) (s : State) :
    ((s.receiveFrame n k t p).port m).role = (s.port m).role := by
  rw [State.port_receiveFrame]; split
  · rename_i h; subst h; simp
  · rfl
@[simp] theorem State.line_receiveFrame (n m : PortId) (k t : Byte) (p : List Word) (s : State) :
    ((s.receiveFrame n k t p).port m).line = (s.port m).line := by
  rw [State.port_receiveFrame]; split
  · rename_i h; subst h; simp
  · rfl
@[simp] theorem State.latched_holdReply (n m : PortId) (k t : Byte) (a : Answer) (s : State) :
    ((s.holdReply n k t a).port m).latched = (s.port m).latched := by
  rw [State.port_holdReply]; split
  · rename_i h; subst h; rfl
  · rfl
@[simp] theorem State.enabled_holdReply (n m : PortId) (k t : Byte) (a : Answer) (s : State) :
    ((s.holdReply n k t a).port m).enabled = (s.port m).enabled := by
  rw [State.port_holdReply]; split
  · rename_i h; subst h; rfl
  · rfl
@[simp] theorem State.role_holdReply (n m : PortId) (k t : Byte) (a : Answer) (s : State) :
    ((s.holdReply n k t a).port m).role = (s.port m).role := by
  rw [State.port_holdReply]; split
  · rename_i h; subst h; rfl
  · rfl
@[simp] theorem State.line_holdReply (n m : PortId) (k t : Byte) (a : Answer) (s : State) :
    ((s.holdReply n k t a).port m).line = (s.port m).line := by
  rw [State.port_holdReply]; split
  · rename_i h; subst h; rfl
  · rfl

/-- The lines follow in a state that agrees with another in all that they rest on. -/
theorem State.linesFollow_congr {s t : State} (hi : t.inReset = s.inReset)
    (hv : ∀ e, t.levelHolds e ↔ s.levelHolds e)
    (hp : ∀ n, (t.port n).role = (s.port n).role ∧ (t.port n).latched = (s.port n).latched
      ∧ (t.port n).enabled = (s.port n).enabled ∧ (t.port n).line = (s.port n).line)
    (h : s.LinesFollow) : t.LinesFollow := by
  intro n
  obtain ⟨h1, h2, h3, h4⟩ := hp n
  simpa only [State.pendingOn, hi, h1, h2, h3, h4, hv] using h n

/-! ### Requests -/

/-- A request of a kind that the role may not make is answered ROLE (R177). -/
theorem requestFrame_role {k : Kind} {take : Taker} {n : PortId} {tag : Byte} {payload : List Word} {s : State}
    (h : s.hearsAny payload) (hr : permits k (s.port n).role = false) :
    requestFrame k take n tag payload s = s.answered n k.code tag payload .role 0 [] := by
  unfold requestFrame answerRequest
  rw [h.1, if_neg (by decide), if_pos h.2, State.role_receiveFrame, hr, if_neg (by decide)]
  rfl

/-- A request of a kind that the role may make is answered by its owner, whose answer the port then holds (R168). -/
theorem requestFrame_taken {k : Kind} {take : Taker} {n : PortId} {tag : Byte} {payload : List Word} {s : State}
    (h : s.hearsAny payload) (hr : permits k (s.port n).role = true) :
    requestFrame k take n tag payload s =
      (take n payload (s.receiveFrame n k.code tag payload)).1.holdReply n k.code tag
        (take n payload (s.receiveFrame n k.code tag payload)).2 := by
  unfold requestFrame answerRequest
  rw [h.1, if_neg (by decide), if_pos h.2, State.role_receiveFrame, if_pos hr]

/-- An owner that leaves the state as it is leaves the state as it is but for the port's frame and reply. -/
theorem requestFrame_unchanged {k : Kind} {take : Taker} {n : PortId} {tag : Byte} {payload : List Word} {s : State}
    {a : Answer} (h : s.hearsAny payload) (hr : permits k (s.port n).role = true)
    (ht : take n payload (s.receiveFrame n k.code tag payload) = (s.receiveFrame n k.code tag payload, a)) :
    requestFrame k take n tag payload s = s.answered n k.code tag payload a.code a.index a.words := by
  rw [requestFrame_taken h hr, ht]; rfl

/-- While RESETN is asserted, and for a payload that no frame can declare, no request is taken. -/
theorem requestFrame_untaken (k : Kind) (take : Taker) (n : PortId) (tag : Byte) (payload : List Word) {s : State} :
    (s.inReset = true → requestFrame k take n tag payload s = s)
    ∧ (s.inReset = false → 64 < payload.length →
        requestFrame k take n tag payload s = s.receiveFrame n k.code tag payload) := by
  unfold requestFrame
  constructor
  · intro h; rw [if_pos h]
  · intro h hp; rw [if_neg (by simp [h]), if_neg (by omega)]

/-! ### The state after an answer -/

@[simp] theorem State.answered_inReset (s : State) (n : PortId) (kind tag : Byte) (payload : List Word) (code : Status) (index : Nat)
    (words : List Word) :
    (s.answered n kind tag payload code index words).inReset = s.inReset := rfl
@[simp] theorem State.answered_pos (s : State) (n : PortId) (kind tag : Byte) (payload : List Word) (code : Status) (index : Nat)
    (words : List Word) :
    (s.answered n kind tag payload code index words).pos = s.pos := rfl
@[simp] theorem State.answered_line (s : State) (n : PortId) (kind tag : Byte) (payload : List Word) (code : Status) (index : Nat)
    (words : List Word) :
    (s.answered n kind tag payload code index words).line = s.line := rfl
@[simp] theorem State.answered_screens (s : State) (n : PortId) (kind tag : Byte) (payload : List Word) (code : Status) (index : Nat)
    (words : List Word) :
    (s.answered n kind tag payload code index words).screens = s.screens := rfl
@[simp] theorem State.answered_phase (s : State) (n : PortId) (kind tag : Byte) (payload : List Word) (code : Status) (index : Nat)
    (words : List Word) :
    (s.answered n kind tag payload code index words).phase = s.phase := rfl
@[simp] theorem State.answered_planned (s : State) (n : PortId) (kind tag : Byte) (payload : List Word) (code : Status) (index : Nat)
    (words : List Word) :
    (s.answered n kind tag payload code index words).planned = s.planned := rfl
@[simp] theorem State.answered_ring (s : State) (n : PortId) (kind tag : Byte) (payload : List Word) (code : Status) (index : Nat)
    (words : List Word) :
    (s.answered n kind tag payload code index words).ring = s.ring := rfl
@[simp] theorem State.answered_web (s : State) (n : PortId) (kind tag : Byte) (payload : List Word) (code : Status) (index : Nat)
    (words : List Word) :
    (s.answered n kind tag payload code index words).web = s.web := rfl
@[simp] theorem State.answered_oven (s : State) (n : PortId) (kind tag : Byte) (payload : List Word) (code : Status) (index : Nat)
    (words : List Word) :
    (s.answered n kind tag payload code index words).oven = s.oven := rfl
@[simp] theorem State.answered_cure (s : State) (n : PortId) (kind tag : Byte) (payload : List Word) (code : Status) (index : Nat)
    (words : List Word) :
    (s.answered n kind tag payload code index words).cure = s.cure := rfl
@[simp] theorem State.answered_reports (s : State) (n : PortId) (kind tag : Byte) (payload : List Word) (code : Status) (index : Nat)
    (words : List Word) :
    (s.answered n kind tag payload code index words).reports = s.reports := rfl
@[simp] theorem State.answered_freeIndex (s : State) (n : PortId) (kind tag : Byte) (payload : List Word) (code : Status) (index : Nat)
    (words : List Word) :
    (s.answered n kind tag payload code index words).freeIndex = s.freeIndex := rfl
@[simp] theorem State.answered_pending (s : State) (n : PortId) (kind tag : Byte) (payload : List Word) (code : Status) (index : Nat)
    (words : List Word) :
    (s.answered n kind tag payload code index words).pending = s.pending := rfl

/-- Answering writes the port alone: the frame received, then the reply. -/
theorem State.port_answered (s : State) (n : PortId) (kind tag : Byte) (payload : List Word) (code : Status) (index : Nat)
    (words : List Word) (m : PortId) :
    (s.answered n kind tag payload code index words).port m =
      if m = n then { (s.port n).received kind tag payload with
        held := { kind := kind, tag := tag, status := code, index := index, words := words } }
      else s.port m := by
  unfold State.answered
  rw [State.port_holdReply]
  split
  · rw [State.port_receiveFrame, if_pos rfl]
  · rename_i h; rw [State.port_receiveFrame, if_neg h]

end Sys2Proof.Machine
end

