-- ==== Sys2Proof/Laws/Requests.lean ====
section
/-! SUPPORT. Requests as commands: the command of a kind is its owner's answer to a received frame, and the changes of an
owner are made on either side of the receiving. -/

namespace Sys2Proof.Machine

/-- The lines may be evaluated before or after a reply is held. -/
theorem holdReply_evalLines (s : State) (n : PortId) (k t : Byte) (a : Answer) :
    s.evalLines.holdReply n k t a = (s.holdReply n k t a).evalLines := by
  have hp : ∀ m, (s.holdReply n k t a).pendingSet m = s.pendingSet m := by
    intro m
    unfold State.pendingSet
    rw [State.latched_holdReply, State.role_holdReply]
    rfl
  apply State.ext_ports
  · unfold State.evalLines State.mapPorts State.holdReply State.modPort
    rfl
  · intro m
    rw [State.port_holdReply, State.port_evalLines, State.port_evalLines, State.port_evalLines, State.port_holdReply]
    unfold State.lineCondition
    rw [hp, State.enabled_holdReply]
    split <;> simp_all

/-- The command of a request kind runs its owner behind the role check. -/
theorem exec_command (k : Kind) (n : PortId) (tag : Byte) (payload : List Word) (s : State) :
    exec (k.command n tag payload) s = .next (requestFrame k (taker k) n tag payload s) := by
  cases k <;> rfl

/-- The command of a kind that the role may not make is answered ROLE. -/
theorem exec_role {k : Kind} {n : PortId} {tag : Byte} {payload : List Word} {s : State} (h : s.hearsAny payload)
    (hr : permits k (s.port n).role = false) :
    exec (k.command n tag payload) s = .next (s.answered n k.code tag payload .role 0 []) := by
  rw [exec_command, requestFrame_role h hr]

/-- The command of a kind whose owner answers it and leaves the state as it is. -/
theorem exec_unchanged {k : Kind} {n : PortId} {tag : Byte} {payload : List Word} {s : State} {a : Answer}
    (h : s.hearsAny payload) (hr : permits k (s.port n).role = true)
    (ht : taker k n payload (s.receiveFrame n k.code tag payload) = (s.receiveFrame n k.code tag payload, a)) :
    exec (k.command n tag payload) s = .next (s.answered n k.code tag payload a.code a.index a.words) := by
  rw [exec_command, requestFrame_unchanged h hr ht]

/-- The command of a kind whose owner makes a change that touches no port. -/
theorem exec_changed {k : Kind} {n : PortId} {tag : Byte} {payload : List Word} {s t : State} {a : Answer}
    (h : s.hearsAny payload) (hr : permits k (s.port n).role = true)
    (ht : taker k n payload (s.receiveFrame n k.code tag payload) = (t.receiveFrame n k.code tag payload, a)) :
    exec (k.command n tag payload) s = .next (t.answered n k.code tag payload a.code a.index a.words) := by
  rw [exec_command, requestFrame_taken h hr, ht]; rfl

/-- The command of a kind whose owner makes a change that touches no port and evaluates the lines. -/
theorem exec_changed_lines {k : Kind} {n : PortId} {tag : Byte} {payload : List Word} {s t : State} {a : Answer}
    (h : s.hearsAny payload) (hr : permits k (s.port n).role = true)
    (ht : taker k n payload (s.receiveFrame n k.code tag payload) = ((t.receiveFrame n k.code tag payload).evalLines, a)) :
    exec (k.command n tag payload) s = .next (t.answered n k.code tag payload a.code a.index a.words).evalLines := by
  rw [exec_command, requestFrame_taken h hr, ht, holdReply_evalLines]; rfl

/-- A kind code names its kind, and no code of a request kind is that of FETCH (R182). -/
theorem ofCode_code (k : Kind) : Kind.ofCode k.code = some k := by cases k <;> decide

theorem code_ne_fetch (k : Kind) : k.code ≠ fetchCode := by cases k <;> decide

theorem ofCode_some {c : Byte} {k : Kind} (h : Kind.ofCode c = some k) : k.code = c := by
  simpa using List.find?_some h

/-! ### Receiving and the changes of other fields commute -/

theorem receiveFrame_withInReset (s : State) (v : Bool) (n : PortId) (k t : Byte) (p : List Word) :
    (s.receiveFrame n k t p).withInReset v = (s.withInReset v).receiveFrame n k t p := rfl
theorem receiveFrame_withPos (s : State) (v : Position) (n : PortId) (k t : Byte) (p : List Word) :
    (s.receiveFrame n k t p).withPos v = (s.withPos v).receiveFrame n k t p := rfl
theorem receiveFrame_withLine (s : State) (v : LineSettings) (n : PortId) (k t : Byte) (p : List Word) :
    (s.receiveFrame n k t p).withLine v = (s.withLine v).receiveFrame n k t p := rfl
theorem receiveFrame_withScreens (s : State) (v : Vector Screen 24) (n : PortId) (k t : Byte) (p : List Word) :
    (s.receiveFrame n k t p).withScreens v = (s.withScreens v).receiveFrame n k t p := rfl
theorem receiveFrame_withPhase (s : State) (v : PhaseShared) (n : PortId) (k t : Byte) (p : List Word) :
    (s.receiveFrame n k t p).withPhase v = (s.withPhase v).receiveFrame n k t p := rfl
theorem receiveFrame_withPlanned (s : State) (v : ScreenSet) (n : PortId) (k t : Byte) (p : List Word) :
    (s.receiveFrame n k t p).withPlanned v = (s.withPlanned v).receiveFrame n k t p := rfl
theorem receiveFrame_withRing (s : State) (v : Ring) (n : PortId) (k t : Byte) (p : List Word) :
    (s.receiveFrame n k t p).withRing v = (s.withRing v).receiveFrame n k t p := rfl
theorem receiveFrame_withWeb (s : State) (v : WebMap) (n : PortId) (k t : Byte) (p : List Word) :
    (s.receiveFrame n k t p).withWeb v = (s.withWeb v).receiveFrame n k t p := rfl
theorem receiveFrame_withOven (s : State) (v : ZoneTable) (n : PortId) (k t : Byte) (p : List Word) :
    (s.receiveFrame n k t p).withOven v = (s.withOven v).receiveFrame n k t p := rfl
theorem receiveFrame_withCure (s : State) (v : CureProfile) (n : PortId) (k t : Byte) (p : List Word) :
    (s.receiveFrame n k t p).withCure v = (s.withCure v).receiveFrame n k t p := rfl
theorem receiveFrame_withReports (s : State) (v : List Report) (n : PortId) (k t : Byte) (p : List Word) :
    (s.receiveFrame n k t p).withReports v = (s.withReports v).receiveFrame n k t p := rfl
theorem receiveFrame_withFreeIndex (s : State) (v : Nat) (n : PortId) (k t : Byte) (p : List Word) :
    (s.receiveFrame n k t p).withFreeIndex v = (s.withFreeIndex v).receiveFrame n k t p := rfl
theorem receiveFrame_withPending (s : State) (v : List Instr) (n : PortId) (k t : Byte) (p : List Word) :
    (s.receiveFrame n k t p).withPending v = (s.withPending v).receiveFrame n k t p := rfl

theorem receiveFrame_modScreen (s : State) (j : ScreenId) (f : Screen → Screen) (n : PortId) (k t : Byte)
    (p : List Word) : (s.receiveFrame n k t p).modScreen j f = (s.modScreen j f).receiveFrame n k t p := rfl

theorem receiveFrame_mapScreens (s : State) (f : ScreenId → Screen → Screen) (n : PortId) (k t : Byte)
    (p : List Word) : (s.receiveFrame n k t p).mapScreens f = (s.mapScreens f).receiveFrame n k t p := by
  unfold State.mapScreens
  rw [← receiveFrame_withScreens]
  rfl

theorem receiveFrame_evalHold (s : State) (n : PortId) (k t : Byte) (p : List Word) :
    (s.receiveFrame n k t p).evalHold = s.evalHold.receiveFrame n k t p := rfl

/-! ### Words -/

theorem flagWord_eq (b : Bool) : flagWord b = words1 (if b then 1 else 0) := by cases b <;> rfl

theorem setWords_eq (set : ScreenSet) : setWords set = words2 set.toNat := rfl

@[simp] theorem words1_length (v : Int) : (words1 v).length = 1 := rfl
@[simp] theorem words2_length (v : Int) : (words2 v).length = 2 := rfl
@[simp] theorem words3_length (v : Int) : (words3 v).length = 3 := rfl
@[simp] theorem flagWord_length (b : Bool) : (flagWord b).length = 1 := by cases b <;> rfl

end Sys2Proof.Machine
end

