-- ==== Sys2Proof/Laws/Grader.lean ====
section
/-! SUPPORT. What the Exit Grader's operations can do, said once: which fields they leave, and what they make of the roll
table and the exit report queue. -/

namespace Sys2Proof.Machine

/-! ### Latching alone -/

/-- Between two states the ports differ in their latched sets alone, which only grow, by kinds that the role may see. -/
def Latches (s t : State) : Prop :=
  ∀ n, t.port n = { s.port n with latched := (t.port n).latched }
    ∧ (∀ e, hasKind (s.port n).latched e → hasKind (t.port n).latched e)
    ∧ ∀ e, hasKind (t.port n).latched e → hasKind (s.port n).latched e ∨ (s.port n).role.sees e

theorem Latches.refl (s : State) : Latches s s := fun _ => ⟨rfl, fun _ h => h, fun _ h => .inl h⟩

/-- A state with the same ports. -/
theorem Latches.of_ports {s t : State} (h : t.ports = s.ports) : Latches s t := by
  intro n
  have : t.port n = s.port n := by unfold State.port; rw [h]
  rw [this]
  exact ⟨rfl, fun _ h => h, fun _ h => .inl h⟩

theorem Latches.trans {s t u : State} (h1 : Latches s t) (h2 : Latches t u) : Latches s u := by
  intro n
  obtain ⟨a1, b1, c1⟩ := h1 n
  obtain ⟨a2, b2, c2⟩ := h2 n
  have hr : (t.port n).role = (s.port n).role := by rw [a1]
  refine ⟨?_, fun e he => b2 e (b1 e he), fun e he => ?_⟩
  · rw [a2, a1]
  · rcases c2 e he with h | h
    · exact c1 e h
    · exact .inr (hr ▸ h)

theorem Latches.latch (e : EventKind) (s : State) : Latches s (s.latch e) := by
  intro n
  refine ⟨?_, fun e' he => ?_, fun e' he => ?_⟩
  · rw [State.port_latch]
  · exact (State.hasKind_latch e e' s n).mpr (.inl he)
  · rcases (State.hasKind_latch e e' s n).mp he with h | h
    · exact .inl h
    · exact .inr h.2

theorem Latches.latchIf (c : Bool) (e : EventKind) (s : State) : Latches s (s.latchIf c e) := by
  cases c
  · exact Latches.refl s
  · exact Latches.latch e s

/-- What latches keeps each port's role, enabled set, line and serial registers. -/
theorem Latches.keeps {s t : State} (h : Latches s t) (n : PortId) :
    (t.port n).role = (s.port n).role ∧ (t.port n).enabled = (s.port n).enabled ∧ (t.port n).line = (s.port n).line
      ∧ (t.port n).sameSerial (s.port n) := by
  rw [(h n).1]
  exact ⟨rfl, rfl, rfl, rfl, rfl, rfl, rfl, rfl, rfl, rfl, rfl, rfl, rfl, rfl⟩

/-! ### Changes of the Web Map, the reports and the latched sets -/

/-- Two states differ in the Web Map, the waiting reports and the latched sets alone. -/
def WebOnly (s t : State) : Prop :=
  t = { s with web := t.web, reports := t.reports, ports := t.ports } ∧ Latches s t

theorem WebOnly.refl (s : State) : WebOnly s s := ⟨rfl, Latches.refl s⟩

theorem WebOnly.trans {s t u : State} (h1 : WebOnly s t) (h2 : WebOnly t u) : WebOnly s u := by
  refine ⟨?_, h1.2.trans h2.2⟩
  rw [h2.1, h1.1]

theorem WebOnly.latch (e : EventKind) (s : State) : WebOnly s (s.latch e) := ⟨rfl, Latches.latch e s⟩

theorem WebOnly.latchIf (c : Bool) (e : EventKind) (s : State) : WebOnly s (s.latchIf c e) := by
  cases c
  · exact WebOnly.refl s
  · exact WebOnly.latch e s

theorem WebOnly.withWeb (s : State) (w : WebMap) : WebOnly s (s.withWeb w) := ⟨rfl, Latches.of_ports rfl⟩
theorem WebOnly.withQueue (s : State) (q : List Segment) : WebOnly s (s.withQueue q) := ⟨rfl, Latches.of_ports rfl⟩
theorem WebOnly.withRolls (s : State) (r : List Roll) : WebOnly s (s.withRolls r) := ⟨rfl, Latches.of_ports rfl⟩
theorem WebOnly.withReports (s : State) (r : List Report) : WebOnly s (s.withReports r) := ⟨rfl, Latches.of_ports rfl⟩

/-- A fold of steps that each change the Web Map, the reports and the latched sets alone. -/
theorem WebOnly.foldl {α : Type} (f : State → α → State) (h : ∀ s a, WebOnly s (f s a)) (l : List α) (s : State) :
    WebOnly s (l.foldl f s) := by
  induction l generalizing s with
  | nil => exact WebOnly.refl s
  | cons a l ih => exact (h s a).trans (ih (f s a))

/-- The screens are as before. -/
theorem WebOnly.screen {s t : State} (h : WebOnly s t) (k : ScreenId) : t.screen k = s.screen k := by
  rw [h.1]; rfl

/-! ### The exit report queue (R155, R156) -/

/-- An offered report waits at the tail of a queue of fewer than 32; at a full one it is lost and REPORT_LOST latched. -/
theorem State.offer_cases (r : Report) (s : State) :
    (s.reports.length < 32 ∧ s.offer r = s.withReports (s.reports ++ [r]))
    ∨ (32 ≤ s.reports.length ∧ s.offer r = s.latch .reportLost) := by
  unfold State.offer
  by_cases h : s.reports.length < 32
  · exact .inl ⟨h, if_pos h⟩
  · exact .inr ⟨by omega, if_neg h⟩

theorem WebOnly.offer (r : Report) (s : State) : WebOnly s (s.offer r) := by
  rcases State.offer_cases r s with ⟨-, h⟩ | ⟨-, h⟩ <;> rw [h]
  · exact WebOnly.withReports s _
  · exact WebOnly.latch _ s

@[simp] theorem State.offer_web (r : Report) (s : State) : (s.offer r).web = s.web := by
  rcases State.offer_cases r s with ⟨-, h⟩ | ⟨-, h⟩ <;> rw [h] <;> simp

/-- The reports after an offer. -/
theorem State.offer_reports (r : Report) (s : State) :
    (s.offer r).reports = if s.reports.length < 32 then s.reports ++ [r] else s.reports := by
  rcases State.offer_cases r s with ⟨h, e⟩ | ⟨h, e⟩
  · rw [e, if_pos h]; rfl
  · rw [e, if_neg (by omega)]; exact State.latch_reports _ s

/-! ### Grading (R149 to R153) -/

theorem WebOnly.gradeRecord (way : WayOut) (g : Segment) (s : State) : WebOnly s (s.gradeRecord way g) :=
  ((WebOnly.withRolls s _).trans (WebOnly.offer _ _)).trans (WebOnly.latchIf _ _ _)

/-- Grading a record tallies it in its rolls, and leaves the rest of the Web Map. -/
theorem State.gradeRecord_web (way : WayOut) (g : Segment) (s : State) :
    (s.gradeRecord way g).web =
      { s.web with
        rolls := s.web.rolls.map fun r =>
          if r.id = g.roll then r.leave (gradeOf (faultsOf s.line s.cure way g)) g.length else r } := by
  simp [State.gradeRecord]

/-- Grading a record offers its report. -/
theorem State.gradeRecord_reports (way : WayOut) (g : Segment) (s : State) :
    (s.gradeRecord way g).reports =
      if s.reports.length < 32 then s.reports ++ [.segment (segmentReport way (faultsOf s.line s.cure way g) g)]
      else s.reports := by
  simp only [State.gradeRecord, State.latchIf_reports, State.offer_reports, State.withRolls_reports]
  rfl

theorem Tally.add_sum (g : Grade) (t : Tally) : (t.add g).sum = t.sum + 1 := by
  cases g <;> simp [Tally.add, Tally.sum, Tally.counts] <;> omega

/-! ### Closing rolls (R106, R158) -/

theorem WebOnly.closeRoll (reason : CloseReason) (r : Roll) (s : State) : WebOnly s (s.closeRoll reason r) :=
  ((WebOnly.withRolls s _).trans (WebOnly.offer _ _)).trans (WebOnly.latch _ _)

/-- A roll that closes leaves the table, and nothing else of the Web Map changes. -/
theorem State.closeRoll_web (reason : CloseReason) (r : Roll) (s : State) :
    (s.closeRoll reason r).web = { s.web with rolls := s.web.rolls.filter fun x => x.id != r.id } := by
  simp [State.closeRoll]

theorem WebOnly.closeAllRolls (reason : CloseReason) (s : State) : WebOnly s (s.closeAllRolls reason) :=
  WebOnly.foldl _ (fun u r => WebOnly.closeRoll reason r u) _ s

/-- The NEXT_ROLL test closes at most one roll. -/
theorem State.nextRollTest_cases (id : Nat) (s : State) :
    s.nextRollTest id = s ∨ ∃ r ∈ s.web.rolls, r.id = id ∧ rollQueued s.web.queue id = false
      ∧ s.nextRollTest id = s.closeRoll .nextRoll r := by
  unfold State.nextRollTest
  cases h : s.web.rolls.find? fun r => r.id == id with
  | none => exact .inl rfl
  | some r =>
    dsimp only
    split
    · rename_i hc
      exact .inr ⟨r, List.mem_of_find?_eq_some h, by simpa using List.find?_some h, hc.1, rfl⟩
    · exact .inl rfl

theorem WebOnly.nextRollTest (id : Nat) (s : State) : WebOnly s (s.nextRollTest id) := by
  rcases State.nextRollTest_cases id s with h | ⟨r, -, -, -, h⟩ <;> rw [h]
  · exact WebOnly.refl s
  · exact WebOnly.closeRoll _ r s

/-- The NEXT_ROLL test leaves the segment queue. -/
theorem State.nextRollTest_queue (id : Nat) (s : State) : (s.nextRollTest id).web.queue = s.web.queue := by
  rcases State.nextRollTest_cases id s with h | ⟨r, -, -, -, h⟩ <;> rw [h]
  rw [State.closeRoll_web]

end Sys2Proof.Machine
end

