-- ==== Sys2Proof/Laws/Web.lean ====
section
/-! SUPPORT. What the Web Map's operations can do, said once. -/

namespace Sys2Proof.Machine

/-! ### Creation (R95 to R98) -/

/-- An eviction takes the head alone from the queue, and its record is graded. -/
theorem State.evict_cases (s : State) :
    (s.web.queue = [] ∧ s.evict = s) ∨ ∃ g rest, s.web.queue = g :: rest
      ∧ s.evict = (((s.withQueue rest).gradeRecord .evicted g).latch .segmentEvicted).nextRollTest g.roll := by
  unfold State.evict
  cases h : s.web.queue with
  | nil => exact .inl ⟨rfl, rfl⟩
  | cons g rest => exact .inr ⟨g, rest, rfl, rfl⟩

theorem WebOnly.evict (s : State) : WebOnly s s.evict := by
  rcases State.evict_cases s with ⟨-, h⟩ | ⟨g, rest, -, h⟩ <;> rw [h]
  · exact WebOnly.refl s
  · exact (((WebOnly.withQueue s _).trans (WebOnly.gradeRecord _ _ _)).trans (WebOnly.latch _ _)).trans
      (WebOnly.nextRollTest _ _)

/-- An eviction leaves the queue without its head. -/
theorem State.evict_queue (s : State) : s.evict.web.queue = s.web.queue.tail := by
  rcases State.evict_cases s with ⟨hq, h⟩ | ⟨g, rest, hq, h⟩ <;> rw [h, hq]
  · rfl
  · rw [State.nextRollTest_queue, State.latch_web, State.gradeRecord_web]; rfl

theorem WebOnly.advanceSeq (s : State) : WebOnly s s.advanceSeq := by
  unfold State.advanceSeq
  split
  · exact (WebOnly.withWeb s _).trans (WebOnly.latch _ _)
  · exact WebOnly.withWeb s _

/-- The next seq rises by one, or stands at its last value with seqs exhausted (R98). -/
theorem State.advanceSeq_web (s : State) :
    s.advanceSeq.web =
      if s.web.nextSeq = 4294967295 then { s.web with exhausted := true }
      else { s.web with nextSeq := s.web.nextSeq + 1 } := by
  unfold State.advanceSeq
  split
  · simp
  · rfl

theorem State.foldl_nextRollTest_queue (l : List Roll) (s : State) :
    (l.foldl (fun u r => u.nextRollTest r.id) s).web.queue = s.web.queue := by
  induction l generalizing s with
  | nil => rfl
  | cons r l ih => rw [List.foldl_cons, ih, State.nextRollTest_queue]

theorem WebOnly.appendSegment (s : State) : WebOnly s s.appendSegment :=
  (((WebOnly.withQueue s _).trans (WebOnly.withRolls _ _)).trans
    (WebOnly.foldl (fun u (r : Roll) => u.nextRollTest r.id) (fun u r => WebOnly.nextRollTest r.id u) _ _)).trans (WebOnly.advanceSeq _)

/-- A record joins the tail of the queue (R95). -/
theorem State.appendSegment_queue (s : State) : s.appendSegment.web.queue = s.web.queue ++ [s.newSegment] := by
  unfold State.appendSegment
  dsimp only
  rw [State.advanceSeq_web]
  split <;> dsimp only <;> rw [State.foldl_nextRollTest_queue] <;> rfl

/-- The three ways of a creation: nothing with seqs exhausted, else an append, behind an eviction at a full queue. -/
theorem State.create_cases (s : State) :
    (s.web.exhausted = true ∧ s.create = s.latch .seqExhausted)
    ∨ (s.web.exhausted = false ∧ s.web.queue.length < 256 ∧ s.create = s.appendSegment)
    ∨ (s.web.exhausted = false ∧ 256 ≤ s.web.queue.length ∧ s.create = s.evict.appendSegment) := by
  unfold State.create
  cases s.web.exhausted with
  | true => exact .inl ⟨rfl, rfl⟩
  | false =>
    by_cases h : 256 ≤ s.web.queue.length
    · exact .inr (.inr ⟨rfl, h, by rw [if_neg (by decide), if_pos h]⟩)
    · exact .inr (.inl ⟨rfl, by omega, by rw [if_neg (by decide), if_neg h]⟩)

/-- A creation changes the Web Map, the reports and the latched sets alone. -/
theorem WebOnly.create (s : State) : WebOnly s s.create := by
  rcases State.create_cases s with ⟨-, h⟩ | ⟨-, -, h⟩ | ⟨-, -, h⟩ <;> rw [h]
  · exact WebOnly.latch _ s
  · exact WebOnly.appendSegment s
  · exact (WebOnly.evict s).trans (WebOnly.appendSegment _)

/-! ### Camera and exit (R99, R100, R92) -/

theorem WebOnly.cameraTest (s : State) : WebOnly s s.cameraTest :=
  (WebOnly.withQueue s _).trans (WebOnly.latchIf _ _ _)

theorem WebOnly.completeDrain (s : State) : WebOnly s s.completeDrain :=
  ((WebOnly.closeAllRolls .drain s).trans (WebOnly.latch _ _)).trans (WebOnly.withWeb _ _)

theorem WebOnly.drainIfEmpty (s : State) : WebOnly s s.drainIfEmpty := by
  unfold State.drainIfEmpty
  split
  · exact WebOnly.completeDrain s
  · exact WebOnly.refl s

theorem WebOnly.exitHead (g : Segment) (rest : List Segment) (s : State) : WebOnly s (s.exitHead g rest) :=
  (((WebOnly.withQueue s _).trans (WebOnly.gradeRecord _ _ _)).trans (WebOnly.nextRollTest _ _)).trans
    (WebOnly.drainIfEmpty _)

theorem WebOnly.exitLoop (x : Int) (n : Nat) (s : State) : WebOnly s (s.exitLoop x n) := by
  induction n generalizing s with
  | zero => exact WebOnly.refl s
  | succ n ih =>
    unfold State.exitLoop
    split
    · exact WebOnly.refl s
    · split
      · exact (WebOnly.exitHead _ _ s).trans (ih _)
      · exact WebOnly.refl s

/-- The Web Map's tests of a drive cycle change the Web Map, the reports and the latched sets alone. -/
theorem WebOnly.webTests (s : State) : WebOnly s s.webTests := by
  unfold State.webTests
  split
  · exact WebOnly.refl s
  · refine (WebOnly.cameraTest s).trans ?_
    unfold State.exitTest
    split
    · exact WebOnly.refl _
    · exact WebOnly.exitLoop _ _ _

/-! ### Seams (R104, R105) -/

theorem WebOnly.recordSeam (c : Int) (s : State) : WebOnly s (s.recordSeam c) := by
  unfold State.recordSeam
  dsimp only
  split
  · exact (WebOnly.withWeb s _).trans (WebOnly.nextRollTest _ _)
  · exact WebOnly.withWeb s _

/-- Which of its four ways a seam pulse takes (R104). -/
theorem State.seamPulse_cases (s : State) :
    ((s.line.dSeam = 0 ∨ s.web.lineState ≠ .run ∨ s.seamTooClose (s.pos.p + s.line.dSeam) = true) ∧ s.seamPulse = s)
    ∨ (s.line.dSeam ≠ 0 ∧ s.web.lineState = .run ∧ s.seamTooClose (s.pos.p + s.line.dSeam) = false
      ∧ 8 ≤ s.web.rolls.length ∧ s.seamPulse = (s.latch .rollTableFull).evalLines)
    ∨ (s.line.dSeam ≠ 0 ∧ s.web.lineState = .run ∧ s.seamTooClose (s.pos.p + s.line.dSeam) = false
      ∧ s.web.rolls.length < 8 ∧ s.seamPulse = (s.recordSeam (s.pos.p + s.line.dSeam)).evalLines) := by
  unfold State.seamPulse
  dsimp only
  by_cases h1 : s.line.dSeam = 0
  · exact .inl ⟨.inl h1, if_pos h1⟩
  rw [if_neg h1]
  by_cases h2 : s.web.lineState = .run
  · rw [if_neg (by simp [h2])]
    cases h3 : s.seamTooClose (s.pos.p + s.line.dSeam) with
    | true => exact .inl ⟨.inr (.inr rfl), rfl⟩
    | false =>
      rw [if_neg (by decide)]
      by_cases h4 : 8 ≤ s.web.rolls.length
      · exact .inr (.inl ⟨h1, h2, rfl, h4, if_pos h4⟩)
      · exact .inr (.inr ⟨h1, h2, rfl, by omega, if_neg h4⟩)
  · exact .inl ⟨.inr (.inl h2), if_pos h2⟩

/-! ### The roll of a record (R102, R103) -/

/-- The last member of a list that passes a test: those after it fail. -/
theorem getLast?_filter_split {α : Type} (p : α → Bool) (l : List α) (r : α) (h : (l.filter p).getLast? = some r) :
    ∃ before after, l = before ++ r :: after ∧ p r = true ∧ ∀ x ∈ after, p x = false := by
  induction l with
  | nil => cases h
  | cons a l ih =>
    cases hl : (l.filter p).getLast? with
    | some b =>
      have hb : b = r := by
        by_cases ha : p a
        · rw [List.filter_cons_of_pos ha, List.getLast?_cons, hl] at h; exact Option.some.inj h
        · rw [List.filter_cons_of_neg ha, hl] at h; exact Option.some.inj h
      obtain ⟨u, v, rfl, hp, hv⟩ := ih (hb ▸ hl)
      exact ⟨a :: u, v, rfl, hp, hv⟩
    | none =>
      have he : l.filter p = [] := List.getLast?_eq_none_iff.mp hl
      by_cases ha : p a
      · rw [List.filter_cons_of_pos ha, he] at h
        cases h
        exact ⟨[], l, rfl, ha, fun x hx => by simpa using (List.filter_eq_nil_iff.mp he) x hx⟩
      · rw [List.filter_cons_of_neg ha, he] at h; cases h

theorem Roll.opensBy_iff (r : Roll) (last : Int) : r.opensBy last = true ↔ r.mayHold last := by
  unfold Roll.opensBy Roll.mayHold
  cases r.seamAt <;> simp

/-- The roll of a record: the last of the table that may hold it, or the first where none may. -/
theorem rollFor_split {rolls : List Roll} {last : Int} {r : Roll} (h : rollFor rolls last = some r) :
    ∃ before after, rolls = before ++ r :: after ∧ (before = [] ∨ r.mayHold last) ∧ ∀ x ∈ after, ¬ x.mayHold last := by
  unfold rollFor at h
  cases hf : (rolls.filter (Roll.opensBy last)).getLast? with
  | some b =>
    rw [hf, Option.some_or] at h
    obtain ⟨u, v, hl, hp, hv⟩ := getLast?_filter_split _ _ _ (h ▸ hf)
    exact ⟨u, v, hl, .inr ((Roll.opensBy_iff r last).mp hp), fun x hx hm => by
      rw [← Roll.opensBy_iff, hv x hx] at hm; cases hm⟩
  | none =>
    rw [hf, Option.none_or] at h
    cases rolls with
    | nil => cases h
    | cons a l =>
      cases h
      exact ⟨[], l, rfl, .inl rfl, fun x hx hm =>
        List.filter_eq_nil_iff.mp (List.getLast?_eq_none_iff.mp hf) x (List.mem_cons_of_mem _ hx)
          ((Roll.opensBy_iff x last).mpr hm)⟩

/-- A table that holds a roll gives every record one. -/
theorem rollFor_isSome {rolls : List Roll} (last : Int) (h : rolls ≠ []) : (rollFor rolls last).isSome = true := by
  cases rolls with
  | nil => exact absurd rfl h
  | cons a l => simp [rollFor]

/-- The state that the rest of a drive cycle finds is that of its creation, or the one before it. -/
theorem State.found_cases (s t : State) :
    (s.handsNewGround t ∧ s.found t = s.afterCreation t) ∨ (¬ s.handsNewGround t ∧ s.found t = s) := by
  by_cases h : s.handsNewGround t
  · exact .inl ⟨h, if_pos h⟩
  · exact .inr ⟨h, if_neg h⟩

/-- The Web Map that a drive cycle finds is that of its creation, or the one before it. -/
theorem State.webFound_cases (s t : State) :
    (s.handsNewGround t ∧ s.webFound t = (s.afterCreation t).web) ∨ (¬ s.handsNewGround t ∧ s.webFound t = s.web) :=
  (State.found_cases s t).imp (fun h => ⟨h.1, congrArg State.web h.2⟩) (fun h => ⟨h.1, congrArg State.web h.2⟩)

/-! ### The ledger of leavings (R97, R100, R106) -/

/-- A leaving offers one segment report. -/
@[simp] theorem Ledger.leave_offered (line : LineSettings) (cure : CureProfile) (way : WayOut) (g : Segment) (l : Ledger) :
    (l.leave line cure way g).offered = l.offered ++ [.segment (segmentReport way (faultsOf line cure way g) g)] := rfl

/-- A leaving closes no roll and opens none. -/
@[simp] theorem Ledger.leave_ids (line : LineSettings) (cure : CureProfile) (way : WayOut) (g : Segment) (l : Ledger) :
    (l.leave line cure way g).rolls.map Roll.id = l.rolls.map Roll.id := by
  simp only [Ledger.leave, List.map_map]
  exact List.map_congr_left fun r _ => by simp only [Function.comp]; split <;> rfl

/-- A drain leaves the table empty. -/
@[simp] theorem Ledger.drain_rolls (l : Ledger) : l.drain.rolls = [] := rfl

/-- No report offered, none gained. -/
@[simp] theorem offeredTo_nil (reports : List Report) : offeredTo reports [] = reports := by
  simp [offeredTo]

/-- Reports offered with room for all are all appended. -/
theorem offeredTo_of_room {reports offered : List Report} (h : reports.length + offered.length ≤ 32) :
    offeredTo reports offered = reports ++ offered :=
  List.take_of_length_le (by simp; omega)

/-! ### The screens that a record tests (R24) -/

theorem mem_groupMembers {t : Vector Screen 24} {j m : ScreenId} :
    m ∈ groupMembers t j ↔ ∃ a, anchorOf t j = some a ∧ anchorOf t m = some a := by
  unfold groupMembers
  cases h : anchorOf t j with
  | none => simp
  | some a => simp [mem_membersOf]

/-- What SCREEN.PUT tests is what the statement's term says. -/
theorem mem_testedScreens (s : State) (j m : ScreenId) (r : StructRecord) :
    m ∈ testedScreens s.screens j r ↔ s.tests j m (tableAfter s.screens j r) := by
  have hb : ∀ t : Vector Screen 24, isAnchor t[j] = true ↔ t[j].present = true ∧ t[j].kind = .anchor := by
    intro t; simp [isAnchor]
  unfold testedScreens State.tests
  dsimp only
  by_cases h1 : isAnchor s.screens[j] = true <;> by_cases h2 : isAnchor (tableAfter s.screens j r)[j] = true
  all_goals
    simp only [h1, h2, Bool.not_true, Bool.not_false, Bool.and_true, Bool.and_false, Bool.false_eq_true, if_true, if_false,
      List.mem_append, mem_groupMembers, ← exists_or, ← and_assoc]
    rw [hb] at h1 h2
    have h1' : (s.screen j).present = true ∧ (s.screen j).kind = .anchor ↔ s.screens[j].present = true
      ∧ s.screens[j].kind = .anchor := Iff.rfl
    simp only [h1', h1, h2, not_true, not_false_iff, and_true, true_and, and_false, false_and, or_false, and_self]

end Sys2Proof.Machine
end

