-- ==== Sys2Proof/Laws/Engagement.lean ====
section
/-! SUPPORT. What screen faults, crossings, engagement requests and the window tests can do, said once. -/

namespace Sys2Proof.Machine

/-- A queue with its printed sets cleared: what marking and unmarking leave as it is. -/
def unprinted (q : List Segment) : List Segment := q.map fun g => { g with printed := 0 }

/-- Two states differ in engagement records, printed sets, the fault list and the latched sets alone. -/
def EngOnly (s t : State) : Prop :=
  t = { s with
    screens := t.screens, ring := { s.ring with faults := t.ring.faults }, web := { s.web with queue := t.web.queue },
    ports := t.ports }
  ∧ Latches s t
  ∧ (∀ k, t.screen k = { s.screen k with eng := (t.screen k).eng })
  ∧ unprinted t.web.queue = unprinted s.web.queue

theorem EngOnly.refl (s : State) : EngOnly s s := ⟨rfl, Latches.refl s, fun _ => rfl, rfl⟩

theorem EngOnly.trans {s t u : State} (h1 : EngOnly s t) (h2 : EngOnly t u) : EngOnly s u := by
  obtain ⟨a1, b1, c1, d1⟩ := h1
  obtain ⟨a2, b2, c2, d2⟩ := h2
  refine ⟨?_, b1.trans b2, fun k => ?_, d2.trans d1⟩
  · rw [a2, a1]
  · rw [c2 k, c1 k]

theorem EngOnly.foldl {α : Type} (f : State → α → State) (h : ∀ s a, EngOnly s (f s a)) (l : List α) (s : State) :
    EngOnly s (l.foldl f s) := by
  induction l generalizing s with
  | nil => exact EngOnly.refl s
  | cons a l ih => exact (h s a).trans (ih (f s a))

theorem EngOnly.latchIf (c : Bool) (e : EventKind) (s : State) : EngOnly s (s.latchIf c e) :=
  ⟨by cases c <;> rfl, Latches.latchIf c e s, fun k => by rw [State.screen_latchIf], by rw [State.latchIf_web]⟩

theorem EngOnly.modEng (k : ScreenId) (f : Engagement → Engagement) (s : State) : EngOnly s (s.modEng k f) := by
  refine ⟨rfl, Latches.of_ports rfl, fun j => ?_, rfl⟩
  rw [State.screen_modEng]
  split
  · rename_i h; subst h; rfl
  · rfl

theorem EngOnly.mapEng (f : ScreenId → Screen → Engagement) (s : State) :
    EngOnly s (s.mapScreens fun k x => { x with eng := f k x }) := by
  refine ⟨?_, Latches.of_ports (State.mapScreens_ports _ s), fun j => ?_, by rw [State.mapScreens_web]⟩
  · unfold State.mapScreens State.withScreens
    rfl
  · rw [State.screen_mapScreens]

theorem EngOnly.withFaults (l : List FaultEntry) (s : State) : EngOnly s (s.withRing { s.ring with faults := l }) :=
  ⟨rfl, Latches.of_ports rfl, fun _ => rfl, rfl⟩

theorem unprinted_map (p : Segment → Bool) (f : Segment → ScreenSet) (q : List Segment) :
    unprinted (q.map fun g => if p g then { g with printed := f g } else g) = unprinted q := by
  unfold unprinted
  rw [List.map_map]
  apply List.map_congr_left
  intro g _
  dsimp only [Function.comp]
  split <;> rfl

theorem EngOnly.unmark (k : ScreenId) (w : Int) (s : State) : EngOnly s (s.withQueue (unmark k w s.web.queue)) :=
  ⟨rfl, Latches.of_ports rfl, fun _ => rfl, unprinted_map _ _ _⟩

theorem EngOnly.mark (k : ScreenId) (newGround : Bool) (s : State) : EngOnly s (s.mark k newGround) := by
  unfold State.mark
  split
  · exact EngOnly.refl s
  · exact ⟨rfl, Latches.of_ports rfl, fun _ => rfl, unprinted_map _ _ _⟩

/-! ### Screen faults (R66, R79, R80) -/

/-- What a fault makes of the engagement record of its screen, and of no other. -/
theorem State.engageFault_eng (k j : ScreenId) (c : FaultCause) (s : State) :
    ((s.engageFault k c).screen j).eng =
      if j = k ∧ s.engState k ≠ .absent ∧ s.engState k ≠ .faulted then (s.screen k).eng.fault c else (s.screen j).eng := by
  have hm : ∀ u : State, ((u.modEng k (Engagement.fault c)).screen j).eng
      = if j = k then (u.screen k).eng.fault c else (u.screen j).eng := by
    intro u; rw [State.screen_modEng]; split <;> rfl
  unfold State.engageFault
  cases h : s.engState k <;> dsimp only <;> (try rw [hm]) <;> simp

theorem EngOnly.engageFault (k : ScreenId) (c : FaultCause) (s : State) : EngOnly s (s.engageFault k c) := by
  unfold State.engageFault
  split
  · exact EngOnly.refl s
  · exact EngOnly.refl s
  · exact (EngOnly.unmark k _ s).trans (EngOnly.modEng k _ _)
  · exact (EngOnly.unmark k _ s).trans (EngOnly.modEng k _ _)
  · exact EngOnly.modEng k _ s
  · exact EngOnly.modEng k _ s
  · exact EngOnly.modEng k _ s

/-- A screen fault changes engagement records, printed sets, the fault list and the latched sets alone. -/
theorem EngOnly.screenFault (k : ScreenId) (c : FaultCause) (seq : Nat) (s : State) :
    EngOnly s (s.screenFault k c seq) := by
  unfold State.screenFault
  split
  · exact EngOnly.refl s
  · exact ((EngOnly.engageFault k c s).trans (EngOnly.withFaults _ _)).trans (EngOnly.latchIf _ _ _)

/-- What a screen fault makes of the engagement records. -/
theorem State.screenFault_eng (k j : ScreenId) (c : FaultCause) (seq : Nat) (s : State) :
    ((s.screenFault k c seq).screen j).eng =
      if j = k ∧ s.engState k ≠ .absent ∧ s.engState k ≠ .faulted then (s.screen k).eng.fault c else (s.screen j).eng := by
  unfold State.screenFault
  split
  · rename_i h; rw [if_neg (by simp [h])]
  · simp only [State.screen_latchIf, State.screen_withRing]
    exact State.engageFault_eng k j c s

/-- What a screen fault makes of the fault list: nothing for an ABSENT screen, else one entry or one repeat more. -/
theorem State.screenFault_faults (k : ScreenId) (c : FaultCause) (seq : Nat) (s : State) :
    (s.screenFault k c seq).ring.faults =
      if s.engState k = .absent then s.ring.faults
      else enterFault { screen := k, cause := c, seq := seq, p := s.pos.p, repeats := 1 } s.ring.faults := by
  unfold State.screenFault
  split
  · rfl
  · have hr : (s.engageFault k c).ring.faults = s.ring.faults := by
      unfold State.engageFault
      split <;> rfl
    simp only [State.latchIf_ring, State.withRing_ring, hr]

/-- The screens of the fault list after a fault: the screen of the fault joins it once. -/
theorem enterFault_screens (e : FaultEntry) (l : List FaultEntry) :
    (enterFault e l).map FaultEntry.screen =
      if e.screen ∈ l.map FaultEntry.screen then l.map FaultEntry.screen
      else l.map FaultEntry.screen ++ [e.screen] := by
  have hany : (l.any fun x => x.screen == e.screen) = true ↔ e.screen ∈ l.map FaultEntry.screen := by
    simp [List.mem_map]
  unfold enterFault
  by_cases h : e.screen ∈ l.map FaultEntry.screen
  · rw [if_pos (hany.mpr h), if_pos h, List.map_map]
    apply List.map_congr_left
    intro x _
    dsimp only [Function.comp]
    split <;> rfl
  · rw [if_neg (fun hh => h (hany.mp hh)), if_neg h]
    simp

/-! ### Crossings and windows (R59 to R63) -/

theorem EngOnly.cross (k : ScreenId) (newGround : Bool) (s : State) : EngOnly s (s.cross k newGround) := by
  unfold State.cross
  split
  · split
    · exact (EngOnly.modEng k _ s).trans (EngOnly.mark k newGround _)
    · exact EngOnly.screenFault k _ _ s
  · exact EngOnly.mark k newGround s
  · split
    · exact EngOnly.modEng k _ s
    · exact EngOnly.mark k newGround s
  · exact EngOnly.refl s
  · exact EngOnly.refl s
  · exact EngOnly.refl s
  · exact EngOnly.refl s

/-- A window test rewrites the engagement record alone. -/
theorem Screen.window_eq (n : Nat) (x : Screen) : x.window n = { x with eng := (x.window n).eng } := by
  unfold Screen.window
  split_ifs <;> rfl

theorem EngOnly.windowTests (s : State) : EngOnly s s.windowTests := by
  have h : s.windowTests = s.mapScreens fun k x => { x with eng := (x.window (arrivingSeq s (s.design k))).eng } := by
    unfold State.windowTests
    congr 1
    funext k x
    exact Screen.window_eq _ x
  rw [h]
  exact EngOnly.mapEng _ s

/-! ### ENGAGE and LIFT (R56, R64) -/

/-- What ENGAGE makes of one screen, by its state; every other screen is untouched. -/
theorem State.engageScreen_screen (k j : ScreenId) (s : State) :
    (s.engageScreen k).screen j =
      if j = k ∧ s.engState k = .parked then { s.screen k with eng := (s.screen k).eng.arm s.web.nextSeq }
      else if j = k ∧ s.engState k = .ending then
        { s.screen k with eng := { (s.screen k).eng with state := .printing, stopSeq := 0 } }
      else s.screen j := by
  unfold State.engageScreen
  by_cases hj : j = k
  · subst hj
    cases h : s.engState j <;> simp [State.screen_modEng]
  · cases h : s.engState k <;> simp [State.screen_modEng, hj]

/-- What ENGAGE makes of the planned set for one screen. -/
theorem State.engageScreen_planned (k : ScreenId) (s : State) :
    (s.engageScreen k).planned =
      if s.engState k = .parked ∨ s.engState k = .ending ∨ s.engState k = .faulted then addTo s.planned k
      else s.planned := by
  unfold State.engageScreen
  cases h : s.engState k <;> simp

/-- What LIFT makes of one screen; every other screen is untouched. -/
theorem State.liftScreen_screen (k j : ScreenId) (s : State) :
    (s.liftScreen k).screen j =
      if j = k then { s.screen k with eng := (s.screen k).eng.lift s.web.nextSeq } else s.screen j := by
  unfold State.liftScreen
  rw [State.screen_withPlanned, State.screen_modEng]

@[simp] theorem State.liftScreen_planned (k : ScreenId) (s : State) : (s.liftScreen k).planned = dropFrom s.planned k := rfl
@[simp] theorem State.liftScreen_web (k : ScreenId) (s : State) : (s.liftScreen k).web = s.web := rfl
@[simp] theorem State.engageScreen_web (k : ScreenId) (s : State) : (s.engageScreen k).web = s.web := by
  unfold State.engageScreen; split <;> rfl

end Sys2Proof.Machine
end

