-- ==== Sys2Proof/Laws/Cycle.lean ====
section
/-! SUPPORT. What the drive cycle and the ring turnaround can do, said once. -/

namespace Sys2Proof.Machine

/-- What the channel advance, the crossings, the windows and the Web Map's tests may change. -/
def CycleOnly (s t : State) : Prop :=
  t = { s with
    screens := t.screens, phase := { s.phase with highWater := t.phase.highWater },
    ring := { s.ring with faults := t.ring.faults }, web := t.web, reports := t.reports, ports := t.ports }
  ∧ Latches s t
  ∧ ∀ k, t.screen k = { s.screen k with chan := (t.screen k).chan, eng := (t.screen k).eng }

theorem CycleOnly.refl (s : State) : CycleOnly s s := ⟨rfl, Latches.refl s, fun _ => rfl⟩

theorem CycleOnly.trans {s t u : State} (h1 : CycleOnly s t) (h2 : CycleOnly t u) : CycleOnly s u := by
  obtain ⟨a1, b1, c1⟩ := h1
  obtain ⟨a2, b2, c2⟩ := h2
  refine ⟨?_, b1.trans b2, fun k => ?_⟩
  · rw [a2, a1]
  · rw [c2 k, c1 k]

theorem CycleOnly.of_web {s t : State} (h : WebOnly s t) : CycleOnly s t := by
  refine ⟨?_, h.2, fun k => ?_⟩
  · rw [h.1]
  · rw [h.screen k]

theorem CycleOnly.of_eng {s t : State} (h : EngOnly s t) : CycleOnly s t := by
  refine ⟨?_, h.2.1, fun k => ?_⟩
  · rw [h.1]
  · rw [h.2.2.1 k]

theorem CycleOnly.modChan (k : ScreenId) (f : Channel → Channel) (s : State) : CycleOnly s (s.modChan k f) := by
  refine ⟨rfl, Latches.of_ports rfl, fun j => ?_⟩
  rw [State.screen_modChan]
  split
  · rename_i h; subst h; rfl
  · rfl

theorem CycleOnly.mapChan (f : ScreenId → Screen → Channel) (s : State) :
    CycleOnly s (s.mapScreens fun k x => { x with chan := f k x }) := by
  refine ⟨?_, Latches.of_ports (State.mapScreens_ports _ s), fun j => ?_⟩
  · unfold State.mapScreens State.withScreens
    rfl
  · rw [State.screen_mapScreens]

theorem CycleOnly.foldl {α : Type} (f : State → α → State) (h : ∀ s a, CycleOnly s (f s a)) (l : List α) (s : State) :
    CycleOnly s (l.foldl f s) := by
  induction l generalizing s with
  | nil => exact CycleOnly.refl s
  | cons a l ih => exact (h s a).trans (ih (f s a))

/-! ### The channel advance (R35 to R43) -/

theorem CycleOnly.slewAll (s : State) : CycleOnly s s.slewAll := by
  have h : s.slewAll = s.mapScreens fun _ x => { x with
      chan := if x.present then { x.chan with applied := slewed x.chan.applied x.chan.target x.tuning.slew }
              else x.chan } := by
    unfold State.slewAll
    congr 1
    funext _ x
    split <;> rfl
  rw [h]
  exact CycleOnly.mapChan _ s

theorem CycleOnly.formSetpoints (s : State) : CycleOnly s s.formSetpoints := by
  have h : s.formSetpoints = s.mapScreens fun _ x => { x with
      chan := if x.present then { x.chan with setpoint := x.chan.r * x.chan.gear / 65536 } else x.chan } := by
    unfold State.formSetpoints
    congr 1
    funext _ x
    split <;> rfl
  rw [h]
  exact CycleOnly.mapChan _ s

theorem CycleOnly.highWater (s : State) (n : Int) : CycleOnly s (s.withPhase { s.phase with highWater := n }) :=
  ⟨rfl, Latches.of_ports rfl, fun _ => rfl⟩

theorem CycleOnly.keyCrossing (r : Int) (s : State) : CycleOnly s (s.keyCrossing r) :=
  (((CycleOnly.modChan 0 _ s).trans (CycleOnly.highWater _ _)).trans (CycleOnly.of_eng (EngOnly.cross 0 true _))).trans
    (CycleOnly.of_web (WebOnly.create _))

/-- The four ways of a channel's advance: none for an ABSENT screen, a forward crossing, a backward crossing, or the
accumulator alone (R36 to R39). -/
theorem State.advanceChannel_cases (k : ScreenId) (dw : Int) (s : State) :
    ((s.screen k).present = false ∧ s.advanceChannel k dw = s)
    ∨ ((s.screen k).present = true ∧ (s.screen k).chan.lcur ≤ (s.screen k).chan.r + dw
      ∧ s.advanceChannel k dw =
        if s.newGround k then s.keyCrossing ((s.screen k).chan.r + dw)
        else (s.modChan k (Channel.forward ((s.screen k).chan.r + dw) (s.lengthUnder k))).cross k false)
    ∨ ((s.screen k).present = true ∧ (s.screen k).chan.r + dw < (s.screen k).chan.lcur ∧ (s.screen k).chan.r + dw < 0
      ∧ s.advanceChannel k dw = s.modChan k (Channel.backward ((s.screen k).chan.r + dw) (s.lengthUnder k)))
    ∨ ((s.screen k).present = true ∧ (s.screen k).chan.r + dw < (s.screen k).chan.lcur ∧ 0 ≤ (s.screen k).chan.r + dw
      ∧ s.advanceChannel k dw = s.modChan k fun c => { c with r := (s.screen k).chan.r + dw }) := by
  unfold State.advanceChannel
  dsimp only
  cases hp : (s.screen k).present with
  | false => exact .inl ⟨rfl, rfl⟩
  | true =>
    rw [if_neg (by decide)]
    by_cases h1 : (s.screen k).chan.lcur ≤ (s.screen k).chan.r + dw
    · exact .inr (.inl ⟨rfl, h1, if_pos h1⟩)
    · rw [if_neg h1]
      by_cases h2 : (s.screen k).chan.r + dw < 0
      · exact .inr (.inr (.inl ⟨rfl, by omega, h2, if_pos h2⟩))
      · exact .inr (.inr (.inr ⟨rfl, by omega, by omega, if_neg h2⟩))

theorem CycleOnly.advanceChannel (k : ScreenId) (dw : Int) (s : State) : CycleOnly s (s.advanceChannel k dw) := by
  rcases State.advanceChannel_cases k dw s with ⟨-, h⟩ | ⟨-, -, h⟩ | ⟨-, -, -, h⟩ | ⟨-, -, -, h⟩ <;> rw [h]
  · exact CycleOnly.refl s
  · split
    · exact CycleOnly.keyCrossing _ s
    · exact (CycleOnly.modChan k _ s).trans (CycleOnly.of_eng (EngOnly.cross k false _))
  · exact CycleOnly.modChan k _ s
  · exact CycleOnly.modChan k _ s

theorem CycleOnly.advanceChannels (deltaP : Int) (s : State) : CycleOnly s (s.advanceChannels deltaP) :=
  (CycleOnly.slewAll s).trans (CycleOnly.foldl _ (fun u k => CycleOnly.advanceChannel k _ u) _ _)

/-- Everything in a drive cycle between the Position Counter and the sending of the frame. -/
theorem CycleOnly.beforeSend (deltaP : Int) (s : State) :
    CycleOnly s ((s.advanceChannels deltaP).windowTests.formSetpoints).webTests :=
  (((CycleOnly.advanceChannels deltaP s).trans (CycleOnly.of_eng (EngOnly.windowTests _))).trans
    (CycleOnly.formSetpoints _)).trans (CycleOnly.of_web (WebOnly.webTests _))

/-! ### The turnaround (R73 to R79) -/

/-- A screen after its slot is evaluated differs in its ring record alone. -/
theorem Screen.evalSlot_eq (x : Screen) (r : Option DriveReply) :
    x.evalSlot r = { x with miss := (x.evalSlot r).miss, last := r } := by
  cases r <;> rfl

/-- The miss count after a slot is evaluated (R74). -/
theorem Screen.evalSlot_miss (x : Screen) (r : Option DriveReply) :
    (x.evalSlot r).miss = if r.isSome then 0 else min 4 (x.miss + 1) := by
  cases r <;> rfl

end Sys2Proof.Machine
end

