-- ==== Sys2Proof/WellFormed.lean ====
section
/-! DEFINITION. The commands that the pins can give: frames whose length their count admits, a kind that is no kind code
where the row says so, ring frames of 50 words. -/

namespace Sys2Proof

/-- A count of payload words a frame may declare (R164). -/
def payloadFits (payload : List Word) : Bool := payload.length ≤ 64

/-- A kind that is neither a request kind nor FETCH (R182). -/
def unknownKind (kind : Byte) : Bool := (Machine.Kind.ofCode kind).isNone && kind != Machine.fetchCode

/-- Whether a command is one that the pins can give. -/
def Instr.wellFormed : Instr → Bool
  | .resetAssert | .resetRelease _ _ _ _ | .encoderEdge _ _ | .driveCycle | .doseTick | .seamPulse => true
  | .ringFrameReturn words => words.length == 50
  | .turnaroundExpiry received => received.length < 50
  | .frameBroken _ _ | .selectAsserted _ | .wordCompleted _ _ | .selectReleased _ _ _ => true
  | .kindRefused _ kind _ payload => unknownKind kind && payloadFits payload
  | .fetch _ _ payload | .linePut _ _ payload | .screenPut _ _ payload | .screenTune _ _ payload
  | .screenGet _ _ payload | .stretchSet _ _ payload | .groupAlign _ _ payload | .engage _ _ payload
  | .lift _ _ payload | .faultTake _ _ payload | .screenClear _ _ payload | .runBegin _ _ payload
  | .runDrain _ _ payload | .runAbort _ _ payload | .segmentGet _ _ payload | .webWhere _ _ payload
  | .regReport _ _ payload | .zonePut _ _ payload | .zoneSample _ _ payload | .curePut _ _ payload
  | .zoneContents _ _ payload | .reportTake _ _ payload | .rollGet _ _ payload | .statusGet _ _ payload
  | .attnEnable _ _ payload | .attnTake _ _ payload => payloadFits payload

end Sys2Proof
end

