-- ==== Sys2Proof/Tests/Slice0.lean ====
section
/-! SUPPORT. Tests: what WellFormed refuses, commands on small states with results that the manual gives, and a witness for
the hypotheses of each statement. -/

namespace Sys2Proof.Tests

open Sys2Proof.Machine

set_option Elab.async false

/-! ### Builders -/

/-- The state after a command. -/
def after (c : Instr) (s : State) : State :=
  match exec c s with
  | .next t => t
  | .fault _ | .refused _ => s

/-- The reply that port n holds: code, word index, payload words. -/
def held (n : PortId) (s : State) : Status × Nat × List Nat :=
  ((s.port n).held.status, (s.port n).held.index, (s.port n).held.words.map BitVec.toNat)

/-- A field of one word at an index, and one of a widen word and a field word. -/
def narrow (i v : Nat) : Field := { index := i, parts := [v], own := v, ownIndex := i }
def wide (i a v : Nat) : Field := { index := i, parts := [a, v], own := v, ownIndex := i + 1 }

/-- The words of a value up to 2^30 − 1. -/
def enc (v : Nat) : List Word := if v < 32768 then [BitVec.ofNat 16 v] else [BitVec.ofNat 16 (32768 + v / 32768), BitVec.ofNat 16 (v % 32768)]

/-- A present screen in an engagement state. -/
def scr (kind : ScreenKind) (e : EngState) : Screen :=
  { Screen.reset with present := true, kind := kind, limit := 2000, eng := { Engagement.reset with state := e } }

/-- A line in SETUP: screen 0 an anchor whose group is aligned, screen 1 a relative of it, one zone, a camera. -/
def line : State :=
  ((((State.reset.modScreen 0 fun _ => { scr .anchor .parked with aligned := true, limit := 0 }).modScreen 1 fun _ =>
    { scr .relative .parked with dist := 96000 }).withLine { LineSettings.reset with xInsp := 300000, dSeam := 20000 }).withOven
      { b0 := 400000, zones := [{ zEnd := 1300000, weight := 128, temp := 1500, age := 0, freshness := .fresh }] }).withRing
        { Ring.reset with state := .up }

/-- A record of the queue. -/
def seg (seq : Nat) (start : Int) : Segment :=
  { seq := seq, roll := 1, start := start, length := 64000, stretch := 0, expected := 3, printed := 3, regs := [],
    camera := true, dose := 0, peak := 0, seam := false, cureUnknown := false }

/-- The line in RUN at P = 500000, with two records queued. -/
def running : State :=
  (line.withPos { Position.reset with p := 500000 }).withWeb
    { WebMap.reset with
      lineState := .run, rolls := [{ Roll.opened 1 none with firstSeq := some 1, lastSeq := some 2, left := 2 }],
      nextRollId := 2, nextSeq := 3, queue := [seg 1 100000, seg 2 164000] }

/-- Screen k of a state in an engagement state. -/
def withEng (k : ScreenId) (e : EngState) (s : State) : State := s.modEng k fun x => { x with state := e }

/-! ### WellFormed refuses ill-formed commands -/

theorem test_wf_payload_of_65_words : Instr.wellFormed (.statusGet 0 0 (List.replicate 65 0)) = false := by decide
theorem test_wf_payload_of_64_words : Instr.wellFormed (.statusGet 0 0 (List.replicate 64 0)) = true := by decide
theorem test_wf_kindRefused_of_a_request_kind : Instr.wellFormed (.kindRefused 0 0x78 0 []) = false := by decide
theorem test_wf_kindRefused_of_fetch : Instr.wellFormed (.kindRefused 0 0x01 0 []) = false := by decide
theorem test_wf_ring_return_of_49_words : Instr.wellFormed (.ringFrameReturn (List.replicate 49 0)) = false := by decide
theorem test_wf_expiry_of_50_words : Instr.wellFormed (.turnaroundExpiry (List.replicate 50 0)) = false := by decide

/-! ### Reset -/

theorem test_reset_release_duplicate_roles :
    (Vector.ofFn fun n => ((after (.resetRelease 0#2 1#2 1#2 0#2) line).port n).role)
      = #v[.line, .oven, .observe, .observe] := by decide +kernel

theorem test_reset_assert_abandons :
    (after .resetAssert (line.modPort 2 fun q => { q with rx := .payload, line := true })).port 2
      = Port.reset .inspect := by decide +kernel

/-! ### Position (spec/01) -/

theorem test_encoder_forward : (after (.encoderEdge true false) .reset).pos.raw = 1 := by decide +kernel
theorem test_encoder_backward_wraps : (after (.encoderEdge false true) .reset).pos.raw = 0xFFFFFFFF := by decide +kernel

/-- The raw count stands d above the taken count. -/
def moved (d : Int) (s : State) : State := s.withPos { s.pos with raw := s.pos.taken + BitVec.ofInt 32 d }

/-- Channel k stands 50 LU short of its boundary, and the web moves by 50. -/
def toCross (k : ScreenId) (s : State) : State := moved 50 (s.modChan k fun c => { c with r := 63950 })

/-- R5, R6: a change of 2,001 is clamped to 2,000 and MOTION_CLAMP is latched; at the bounds of P the motion is dropped. -/
theorem test_drive_clamps_change : (after .driveCycle (moved 2001 .reset)).pos.p = 2000
    ∧ ((after .driveCycle (moved 2001 .reset)).port 0).latched = 0x4000 := by decide +kernel
theorem test_drive_clamps_reverse : (after .driveCycle (moved (-2001) running)).pos.p = 498000 := by decide +kernel
theorem test_drive_drops_at_zero : (after .driveCycle (moved (-1) .reset)).pos.p = 0
    ∧ (after .driveCycle (moved (-1) .reset)).pos.motion = .still := by decide +kernel

/-- The last LU below 2^40. -/
def atTop : State := moved 2 (State.reset.withPos { Position.reset with p := 1099511627774, still := 198, motion := .moving })
theorem test_drive_drops_at_top : (after .driveCycle atTop).pos.p = 1099511627775 := by decide +kernel

theorem test_line_put : held 0 (after (.linePut 0 7 (enc 64000 ++ [0] ++ enc 300000 ++ [0, 250, 1])) .reset)
    = (.ok, 0, [0, 64000, 0, 0, 4, 37856, 0, 250, 1]) := by decide +kernel
theorem test_line_put_names_first_widen_word :
    held 0 (after (.linePut 0 7 (enc 64000 ++ enc 500001 ++ enc 300000 ++ [0, 250, 1])) .reset) = (.range, 2, []) := by
  decide +kernel

/-! ### Screens (spec/02) -/

theorem test_screen_put_applies_and_counts :
    held 0 (after (.screenPut 0 1 ([0, 0, 1, 0, 0, 0, 1, 1, 0] ++ enc 96000 ++ [2000, 1])) .reset) = (.ok, 0, [2, 2]) := by
  decide +kernel
theorem test_screen_put_key_screen_must_come_first :
    held 0 (after (.screenPut 0 1 [1, 0, 1, 0, 100, 0]) .reset) = (.state, 1, [0, 1]) := by decide +kernel

/-- R24, assumption log 30: screen 1 demoted from anchor to relative passes to group 0, whose active screen 0 is not
tested; screen 2, moved from nowhere into group 0, finds it active. -/
theorem test_screen_put_demotes_an_anchor_into_a_busy_group :
    held 0 (after (.screenPut 0 1 [1, 0, 1, 1, 0, 0])
      (withEng 0 .printing (running.modScreen 1 fun x => { x with kind := .anchor }))) = (.ok, 0, [1, 2])
    ∧ held 0 (after (.screenPut 0 1 [2, 0, 1, 1, 0, 0]) (withEng 0 .printing running)) = (.state, 1, [0, 2]) := by
  decide +kernel
theorem test_screen_tune_rolls_over :
    held 0 (after (.screenTune 0 1 [23, 2000, 1, 0, 0, 1, 10000, 64, 256, 255, 1000]) .reset) = (.ok, 0, [2, 1]) := by
  decide +kernel
theorem test_screen_get_reads_distance :
    ((held 3 (after (.screenGet 3 1 [1]) line)).2.2.take 5) = [1, 1, 1, 1, 30464] := by decide +kernel

/-! ### Phase (spec/03) -/

/-- R33, R34: S = −500 on 64,000 LU stages 63,512. -/
theorem test_stretch_set : held 0 (after (.stretchSet 0 1 [32268]) .reset) = (.ok, 0, [65036, 0, 0, 63512]) := by
  decide +kernel
theorem test_stretch_clamps : held 0 (after (.stretchSet 0 1 [30168]) .reset) = (.ok, 0, [63488, 1, 0, 62000]) := by
  decide +kernel
theorem test_group_align_places_relative :
    held 0 (after (.groupAlign 0 1 [0]) (line.withPos { Position.reset with p := 100 }))
      = (.ok, 0, [0, 1, 1, 0, 0, 0, 32000, 0, 64000]) := by decide +kernel
theorem test_group_align_refuses_relative : held 0 (after (.groupAlign 0 1 [1]) line) = (.state, 0, []) := by
  decide +kernel

/-! ### Engagement (spec/04) -/

theorem test_engage_arms : held 0 (after (.engage 0 1 [0]) running) = (.ok, 0, [2, 0, 3, 0, 0, 0, 1, 0, 1]) := by
  decide +kernel
theorem test_engage_needs_planned_anchor : held 0 (after (.engage 0 1 [1]) running) = (.state, 0, []) := by
  decide +kernel
theorem test_lift_ends_at_next_seq :
    held 0 (after (.lift 0 1 [0]) ((withEng 0 .printing running).withPlanned 1)) = (.ok, 0, [5, 0, 3, 0, 1, 0, 1, 0, 0]) := by
  decide +kernel

/-! ### Ring (spec/05) -/

/-- The words of a returned frame in which every slot of the list answers with a drive state. -/
def returned (count : Byte) (ds : List (ScreenId × BitVec 2)) : List Word :=
  [ringHeader count, ~~~(ringHeader count)] ++ allScreens.flatMap fun k =>
    match ds.find? fun d => d.1 == k with
    | some d => [(1#1 ++ d.2 ++ BitVec.ofNat 5 k.val : Byte) ++ slotCheck (1#1 ++ d.2 ++ BitVec.ofNat 5 k.val) 7, 7]
    | none => [0, 0]

/-- A frame of count 5 in flight. -/
def inFlight (s : State) : State := s.withRing { s.ring with frameCount := 5, inFlight := some 5, timer := true }

theorem test_return_records_replies :
    ((after (.ringFrameReturn (returned 5 [(0, 0), (1, 3)])) (inFlight running)).screen 0).last
      = some { state := .raised, phase := 7 }
    ∧ (after (.ringFrameReturn (returned 5 [(0, 0), (1, 3)])) (inFlight running)).engState 1 = .faulted := by decide +kernel
theorem test_fourth_miss_loses_ring :
    (after (.turnaroundExpiry []) (inFlight ((running.modScreen 0 fun x => { x with miss := 3 }).modScreen 1 fun x =>
      { x with miss := 3 }))).ring.faults.map FaultEntry.cause = [.ring, .ring] := by decide +kernel
theorem test_fault_take_empty : held 0 (after (.faultTake 0 1 []) line) = (.empty, 0, []) := by decide +kernel
theorem test_fault_take_oldest :
    held 0 (after (.faultTake 0 1 []) (line.withRing { line.ring with
      faults := [{ screen := 2, cause := .late, seq := 65537, p := 65538, repeats := 9 }] }))
      = (.ok, 0, [2, 5, 1, 1, 0, 1, 2, 9, 0]) := by decide +kernel
theorem test_screen_clear_needs_a_reply :
    held 0 (after (.screenClear 0 1 [1]) (withEng 1 .faulted line)) = (.state, 0, []) := by decide +kernel

/-- Screen k FAULTED, its drive answering RAISED. -/
def faultedUp (k : ScreenId) (s : State) : State :=
  (withEng k .faulted s).modScreen k fun x => { x with last := some { state := .raised, phase := 0 } }
theorem test_screen_clear_rearms_a_planned_screen :
    held 0 (after (.screenClear 0 1 [1]) ((faultedUp 1 running).withPlanned 3)) = (.ok, 0, [2, 0, 3, 1]) := by
  decide +kernel

/-! ### Web (spec/06) -/

theorem test_run_begin : held 0 (after (.runBegin 0 1 []) line) = (.ok, 0, [1, 0, 1, 0, 0, 0]) := by decide +kernel
theorem test_run_begin_camera_in_oven :
    held 0 (after (.runBegin 0 1 []) (line.withOven { line.oven with b0 := 299999 })) = (.state, 0, [7]) := by decide +kernel
theorem test_run_drain_with_empty_queue :
    held 0 (after (.runDrain 0 1 []) (running.withQueue [])) = (.ok, 0, [0, 0, 0, 3]) := by decide +kernel
theorem test_run_abort : held 0 (after (.runAbort 0 1 []) running) = (.ok, 0, [2, 1])
    ∧ (after (.runAbort 0 1 []) running).reports.length = 3 := by decide +kernel
/-- Assumption log 32: the payload is tested before the line state. -/
theorem test_run_abort_field_in_setup : held 0 (after (.runAbort 0 1 [7]) line) = (.range, 0, []) := by decide +kernel
theorem test_segment_get_gone : held 3 (after (.segmentGet 3 1 [9]) running) = (.gone, 0, []) := by decide +kernel
theorem test_segment_get_register_list : held 3 (after (.segmentGet 3 1 [2, 1]) running) = (.ok, 0, [0, 2, 0]) := by
  decide +kernel
/-- R109: the last LU of the first record stands at path position P − start − length. -/
theorem test_web_where_last_lu :
    held 3 (after (.webWhere 3 1 (enc 336000)) running) = (.ok, 0, [0, 1, 1, 1, 0, 63999, 0, 64000, 0, 7, 41248]) := by
  decide +kernel
theorem test_web_where_empty : held 3 (after (.webWhere 3 1 (enc 400000)) running) = (.empty, 0, []) := by decide +kernel
theorem test_seam_opens_a_roll :
    ((after .seamPulse (running.withPos { running.pos with p := 150000 })).web.queue.map Segment.roll) = [1, 2] := by
  decide +kernel
theorem test_seam_ignored_when_close :
    after .seamPulse (running.withWeb { running.web with lastSeam := some 392001 })
      = running.withWeb { running.web with lastSeam := some 392001 } := by decide +kernel
theorem test_drive_cycle_creates_a_segment :
    (after .driveCycle (moved 50 (running.modChan 0 fun c => { c with r := 63950 }))).web.queue.map Segment.seq
      = [1, 2, 3] := by decide +kernel

/-! ### Register and cure (spec/07, spec/08) -/

/-- R119, R120: e = +37 at gain 128 corrects by floor((37 × 128 + 128) / 256) = 19. -/
theorem test_reg_report_corrects :
    held 2 (after (.regReport 2 1 [1, 1, 37]) running) = (.ok, 0, [0, 1, 1, 37, 0, 0, 0, 2, 19, 0, 65517, 0, 1]) := by
  decide +kernel
theorem test_reg_report_reference : held 2 (after (.regReport 2 1 [1, 0, 37]) running) = (.reference, 0, []) := by
  decide +kernel
theorem test_zone_put : held 0 (after (.zonePut 0 1 ([1] ++ enc 400000 ++ enc 620000 ++ [255])) .reset)
    = (.ok, 0, [1, 6, 6784, 9, 30176]) := by decide +kernel
theorem test_zone_put_names_a_short_zone :
    held 0 (after (.zonePut 0 1 ([1] ++ enc 400000 ++ enc 619999 ++ [255])) .reset) = (.range, 3, []) := by decide +kernel
theorem test_zone_sample_clamps : held 1 (after (.zoneSample 1 1 [32765]) line) = (.ok, 0, [1, 0, 4000, 1]) := by
  decide +kernel
theorem test_zone_sample_kills : held 1 (after (.zoneSample 1 1 [32766]) line) = (.ok, 0, [1, 2, 1500, 0]) := by
  decide +kernel
theorem test_cure_put_min_above_max : held 1 (after (.curePut 1 1 [1300, 1800, 9, 8]) line) = (.range, 2, []) := by
  decide +kernel
theorem test_zone_contents :
    held 3 (after (.zoneContents 3 1 [1]) line) = (.ok, 0,
      [1, 6, 6784, 19, 54816, 128, 1500, 0, 0, 300, 0, 0, 0, 0]) := by decide +kernel
/-- R141: a record wholly inside a zone of excess 300 gains 300 a tick. -/
theorem test_dose_tick : (after .doseTick (running.withPos { running.pos with p := 800000 })).web.queue.map Segment.dose
    = [300, 300] := by decide +kernel
/-- R138: at the fifth tick without a sample a FRESH zone becomes STALE, at the thirtieth DEAD. -/
theorem test_dose_tick_ages :
    (after .doseTick (line.withOven { line.oven with zones := [
      { zEnd := 700000, weight := 1, temp := 0, age := 4, freshness := .fresh },
      { zEnd := 1000000, weight := 1, temp := 0, age := 29, freshness := .stale }] })).oven.zones.map Zone.freshness
      = [.stale, .dead] := by decide +kernel

/-! ### Reports, ports and attention (spec/09 to spec/11) -/

theorem test_report_take_empty : held 0 (after (.reportTake 0 1 []) line) = (.empty, 0, []) := by decide +kernel
theorem test_roll_get_list : held 2 (after (.rollGet 2 1 []) running) = (.ok, 0, [1, 1, 65535, 65535, 65535, 2]) := by
  decide +kernel
theorem test_roll_get_gone : held 2 (after (.rollGet 2 1 [2]) running) = (.gone, 0, []) := by decide +kernel
theorem test_status_get : ((held 3 (after (.statusGet 3 1 []) line)).2.2.take 6) = [0, 1, 0, 0, 0, 3] := by decide +kernel
/-- R191: OVEN asks for SCREEN_FAULT, ZONE_DEAD and CURE_FAULT and holds the last two; WEB_STILL is pending. -/
theorem test_attn_enable_drops_unseen : held 1 (after (.attnEnable 1 1 [3104]) line) = (.ok, 0, [0, 3072, 0, 4]) := by
  decide +kernel
theorem test_attn_take : held 0 (after (.attnTake 0 1 []) (line.latch .screenFault)) = (.ok, 0, [0, 36, 0, 0]) := by
  decide +kernel
theorem test_kind_refused : held 2 (after (.kindRefused 2 0x02 9 []) line) = (.kind, 0, []) := by decide +kernel
theorem test_role_refused : held 2 (after (.runBegin 2 9 []) line) = (.role, 0, []) := by decide +kernel
theorem test_frame_broken_in_header :
    ((after (.frameBroken 0 (.released 8 0x7800)) (after (.selectAsserted 0) line)).port 0).held
      = { kind := 0x78, tag := 0, status := .frame, index := 0, words := [] } := by decide +kernel
theorem test_frame_broken_check_word :
    held 0 (after (.frameBroken 0 (.checkWord 1)) (line.modPort 0 fun q => { q with rx := .check })) = (.frame, 0, []) := by
  decide +kernel
theorem test_fetch_keeps_reply : ((after (.fetch 0 1 []) (after (.runBegin 0 1 []) line)).port 0).fetch = some 0
    ∧ held 0 (after (.fetch 0 1 []) (after (.runBegin 0 1 []) line)) = (.ok, 0, [1, 0, 1, 0, 0, 0]) := by decide +kernel
theorem test_word_header : ((after (.wordCompleted 0 0x7809) (after (.selectAsserted 0) line)).port 0).rx = .count := by
  decide +kernel
theorem test_select_released : ((after (.selectReleased 0 0 0) (after (.selectAsserted 0) line)).port 0).held = Reply.none := by
  decide +kernel

/-! ### Checks and fields (spec/10) -/

/-- The published check value 0x29B1 of the polynomial and start of R165, over the nine bytes 31 … 39 (hex). -/
theorem test_crc16_published_value :
    (bitsOf (0x39 : Byte)).foldl crc16Bit (crc16 [0x3132, 0x3334, 0x3536, 0x3738]) = 0x29B1 := by decide +kernel
/-- The published check value 0xF4 of the polynomial of R185, over the same bytes. -/
theorem test_crc8_published_value :
    (([0x31, 0x32, 0x33, 0x34, 0x35, 0x36, 0x37, 0x38, 0x39] : List Byte).flatMap bitsOf).foldl crc8Bit 0 = 0xF4 := by
  decide +kernel
/-- The payload worked through in spec/10: a seq of 4,000,000,000, screen 5, an error of −20,000. -/
theorem test_fields_of_worked_example :
    (fields [0x8003, 0xDCD6, 0x2800, 0x0005, 0xFFFF, 0x31E0]).map Field.value = [4000000000, 5, 1073721824]
    ∧ (fields [0x8003, 0xDCD6, 0x2800, 0x0005, 0xFFFF, 0x31E0]).map Field.index = [0, 3, 4]
    ∧ ((fields [0x8003, 0xDCD6, 0x2800, 0x0005, 0xFFFF, 0x8000, 0xFFFF, 0x31E0, 0x8000]).map Field.signed)[2]? = some (-20000) := by
  decide +kernel
theorem test_no_word_spells_a_command : decodeTableWord 16 0x7800 = none := rfl

/-! ### Witnesses: states and operands that meet the hypotheses of the statements, together -/

theorem witness_EncoderEdgeCountsByDirection :
    (after .resetAssert State.reset).inReset = true
    ∧ (after (.encoderEdge true false) (after .resetAssert State.reset)).pos.raw = 0
    ∧ (after (.encoderEdge true true) .reset).pos = { Position.reset with encA := true, encB := true, lostEdge := true }
    ∧ (after (.encoderEdge false false) .reset).pos = Position.reset
    ∧ (after (.encoderEdge true false) .reset).pos.raw = 1
    ∧ (after (.encoderEdge false true) .reset).pos.raw = 0xFFFFFFFF := by decide +kernel

/-- Each side of each bound: the change at ±2,000 and beyond, P at its ends, the still counter at 198 and 199. -/
theorem witness_DriveCycleMovesPosition :
    running.inReset = false
    ∧ (after .driveCycle (moved 2000 running)).pos.p = 502000 ∧ (after .driveCycle (moved 2001 running)).pos.p = 502000
    ∧ (after .driveCycle (moved (-2000) running)).pos.p = 498000
    ∧ (after .driveCycle (moved (-2001) running)).pos.p = 498000
    ∧ atTop.inReset = false ∧ (after .driveCycle atTop).pos.p = 1099511627775
    ∧ (after .driveCycle (atTop.withPos { atTop.pos with raw := 0 })).pos.motion = .moving
    ∧ (after .driveCycle (atTop.withPos { atTop.pos with raw := 0, still := 199 })).pos.motion = .still := by
  decide +kernel

/-- A channel that crosses forward at exactly its length, one LU short of it, and backward below 0; crossings that take
the length of the segment under the screen, and L_fab where there is none and on new ground. -/
theorem witness_DriveCycleAdvancesChannels :
    ((after .driveCycle (moved 50 (running.modChan 1 fun c => { c with r := 63950 }))).screen 1).chan.n = 1
    ∧ ((after .driveCycle (moved 49 (running.modChan 1 fun c => { c with r := 63950 }))).screen 1).chan.r = 63999
    ∧ ((after .driveCycle (moved (-1) running)).screen 1).chan.n = -1
    ∧ ((after .driveCycle (moved 50 running)).screen 2).chan = Channel.reset
    ∧ ((after .driveCycle (moved 50 ((running.modChan 1 fun c => { c with r := 63950 }).withQueue
        [{ seg 1 350000 with length := 55000 }]))).screen 1).chan.lcur = 55000
    ∧ ((after .driveCycle (moved 50 ((running.modChan 1 fun c => { c with r := 63950, lcur := 60000 }).withQueue
        []))).screen 1).chan.lcur = 64000
    ∧ (toCross 0 running).onNewGround (after .driveCycle (toCross 0 running)) 0
    ∧ ¬ (toCross 1 running).onNewGround (after .driveCycle (toCross 1 running)) 1 := by
  decide +kernel

/-- A LOWERING screen with and without a LOWERED reply, an ENDING one at its stop seq and one below it, and an ARMED one on
both sides of its window, with its arriving seq at its start seq and one below it. -/
theorem witness_DriveCycleMovesEngagement :
    (after .driveCycle (toCross 1 ((withEng 1 .lowering running).modScreen 1 fun x =>
      { x with last := some { state := .lowered, phase := 0 } }))).engState 1 = .printing
    ∧ (after .driveCycle (toCross 1 (withEng 1 .lowering running))).engState 1 = .faulted
    ∧ (after .driveCycle (toCross 1 (withEng 1 .lowering running))).ring.faults
      = [{ screen := 1, cause := .late, seq := 3, p := 500050, repeats := 1 }]
    ∧ ([3, 4].map fun n => (after .driveCycle (toCross 1 (running.modEng 1 fun e =>
        { e with state := .ending, stopSeq := n }))).engState 1) = [.parked, .ending]
    ∧ ((after .driveCycle ((withEng 1 .armed running).modChan 1 fun c => { c with r := 53999 })).screen 1).eng.window = true
    ∧ ((after .driveCycle ((withEng 1 .armed running).modChan 1 fun c => { c with r := 54000 })).screen 1).eng.window = false
    ∧ ([3, 4].map fun n => (after .driveCycle ((running.modEng 1 fun e =>
        { e with state := .armed, window := true, startSeq := n }).modChan 1 fun c => { c with r := 54000 })).engState 1)
      = [.lowering, .armed] := by decide +kernel

theorem witness_DriveCycleSendsSetpointFrame_and_Frame :
    running.inReset = false ∧ (after .driveCycle running).ring.sent.length = 50 ∧ line.inReset = false
    ∧ line.web.lineState = .setup ∧ line.web.queue = [] ∧ (after .driveCycle line).web = line.web := by decide +kernel

/-- A creation on a short queue, at a full one, at the last seq, and with seqs exhausted. -/
theorem witness_CreationAppendsOneRecord :
    running.web.exhausted = false ∧ running.create.web.queue.length = 3 ∧ running.create.web.nextSeq = 4
    ∧ (running.withQueue (List.replicate 256 (seg 1 100000))).create.web.queue.length = 256
    ∧ (running.withWeb { running.web with nextSeq := 4294967295 }).create.web.exhausted = true
    ∧ (running.withWeb { running.web with exhausted := true }).create.web.queue.length = 2
    ∧ (running.withQueue []).create.web.queue.length = 1 := by decide +kernel

/-- Rolls whose seams stand at the last coordinate of the record and one LU beyond it: the record joins the former, and
the rolls before it that hold no record close. -/
def seamed : State :=
  running.withRolls [{ Roll.opened 1 none with firstSeq := some 1, lastSeq := some 2, left := 2 }, Roll.opened 2 (some 280000),
    Roll.opened 3 (some 291999), Roll.opened 4 (some 292000)]
theorem witness_CreationAppendsOneRecord_rolls :
    seamed.web.queue.length < 256 ∧ (seamed.web.rolls.map Roll.id).Nodup
    ∧ (∀ x ∈ [Roll.opened 4 (some 292000)], ∀ c, x.seamAt = some c → 228000 + 64000 - 1 < c)
    ∧ (seamed.create.web.queue.getLast?.map fun g => (g.start + g.length - 1, g.roll)) = some (291999, 3)
    ∧ seamed.create.web.rolls.map Roll.id = [1, 3, 4] ∧ seamed.create.web.rolls.map Roll.left = [2, 1, 0]
    ∧ seamed.create.reports.length = 1
    ∧ ((running.withRolls [Roll.opened 7 (some 292000)]).create.web.queue.getLast?.map Segment.roll) = some 7 := by
  decide +kernel

/-- Channel 0 crosses into new ground at n_0 + 1 above the high-water mark, and not at the mark. -/
theorem witness_CreationAppendsOneRecord_drive :
    (toCross 0 running).handsNewGround (after .driveCycle (toCross 0 running))
    ∧ (after .driveCycle (toCross 0 running)).phase.highWater = 1
    ∧ ¬ (toCross 0 (running.withPhase { running.phase with highWater := 1 })).handsNewGround
        (after .driveCycle (toCross 0 (running.withPhase { running.phase with highWater := 1 })))
    ∧ (after .driveCycle (toCross 0 (running.withPhase { running.phase with highWater := 1 }))).web.nextSeq = 3 := by
  decide +kernel

/-- At 256 records: an evicted head that was the only record of the first roll, which closes; the new record joins the roll
whose seam it does not hold, or the one whose seam stands at its start. -/
def full (rolls : List Roll) : State :=
  (running.withRolls rolls).withQueue (seg 1 100000 :: List.replicate 255 { seg 2 164000 with roll := 2 })
theorem witness_CreationAppendsOneRecord_full :
    (full [{ Roll.opened 1 none with left := 1 }, { Roll.opened 2 (some 164000) with left := 255 }]).web.queue.length = 256
    ∧ ([[], [Roll.opened 3 (some 228000)], [Roll.opened 3 (some 292000)]].map fun more =>
        let t := (full ([{ Roll.opened 1 none with left := 1 }, { Roll.opened 2 (some 164000) with left := 255 }] ++ more)).create
        (t.web.queue.getLast?.map fun g => (g.start, g.roll, g.seam), t.web.rolls.map fun r => (r.id, r.left)))
      = [(some (228000, 2, false), [(2, 256)]), (some (228000, 3, true), [(2, 255), (3, 1)]),
        (some (228000, 2, false), [(2, 256), (3, 0)])]
    ∧ (full [{ Roll.opened 1 none with left := 1 }, Roll.opened 2 (some 164000)]).create.reports
      = [.segment { seq := 1, roll := 1, wayOut := .evicted, grade := .lost, faults := 1, start := 100000, length := 64000,
                     dose := 0, peak := 0, expected := 3, printed := 3, outOfTol := 0, largestError := 0 },
        .roll { id := 1, reason := .nextRoll, seamAt := none, firstSeq := none, lastSeq := none, segments := 1,
                tally := { Tally.zero with lost := 1 }, totalLength := 64000 }] := by decide +kernel

/-- A head at the exit and one LU short of it; a record at the camera and one LU short of it; a record that screen 1
marks; a drain that the last exit completes. -/
theorem witness_DriveCycleLeavesNoRecordDue :
    running.inReset = false ∧ running.web.lineState ≠ .setup ∧ running.oven.exit = some 1300000
    ∧ ([1463999, 1464000].map fun p => (after .driveCycle (running.withPos { running.pos with p := p })).web.queue.length)
      = [2, 1]
    ∧ ([399999, 400000].map fun p => (after .driveCycle ((running.withQueue [{ seg 1 100000 with camera := false }]).withPos
        { running.pos with p := p })).web.queue.map Segment.camera) = [[false], [true]]
    ∧ ((after .driveCycle (toCross 1 ((withEng 1 .printing running).withQueue
        [{ seg 1 350000 with printed := 1 }, { seg 2 414000 with printed := 1 }]))).web.queue.map Segment.printed) = [3, 1]
    ∧ (after .driveCycle ((running.withWeb { running.web with lineState := .drain, queue := [seg 2 164000] }).withPos
        { running.pos with p := 1528000 })).web.lineState = .setup := by decide +kernel

/-- What a drive cycle at P offers as reports (segment 0: way out and seq; roll 1: reason and id) and leaves in the roll
table (id, segments left, PASS count, total length). -/
def leavings (p : Int) (s : State) : List (List Nat) × List (List Nat) :=
  let t := after .driveCycle (s.withPos { s.pos with p := p })
  (t.reports.map fun r => match r with
    | .segment x => [0, x.wayOut.toCode, x.seq]
    | .roll x => [1, x.reason.toCode, x.id],
  t.web.rolls.map fun r => [r.id, r.left, r.tally.pass, r.totalLength])

/-- An exit in RUN, tallied; one that empties its roll while a later roll holds a record; the last one of a drain; and the
last one of a drain with room for one report, and with room for none. A dose one below its minimum latches CURE_FAULT. -/
theorem witness_DriveCycleLeavesNoRecordDue_ledger :
    leavings 1464000 running = ([[0, 0, 1]], [[1, 1, 1, 64000]])
    ∧ leavings 1464000 ((running.withRolls [{ Roll.opened 1 none with left := 1 },
        { Roll.opened 2 (some 164000) with left := 1 }]).withQueue [seg 1 100000, { seg 2 164000 with roll := 2 }])
      = ([[0, 0, 1], [1, 0, 1]], [[2, 1, 0, 0]])
    ∧ leavings 1528000 (running.withWeb { running.web with lineState := .drain })
      = ([[0, 0, 1], [0, 0, 2], [1, 1, 1]], [])
    ∧ ([0, 1].map fun least => ((after .driveCycle ((running.withCure { running.cure with doseMin := least }).withPos
        { running.pos with p := 1464000 })).port 0).latched.getLsbD 11) = [false, true]
    ∧ ([31, 32].map fun n =>
        let t := after .driveCycle (((running.withWeb { running.web with lineState := .drain }).withReports
          (List.replicate n (.roll (rollReport .drain (Roll.opened 9 none))))).withPos { running.pos with p := 1528000 })
        (t.reports.length, (t.port 0).latched.getLsbD 7, t.web.rolls.length)) = [(32, true, 0), (32, true, 0)] := by
  decide +kernel

/-- A record whose only fault is its seam, and one that was evicted. -/
theorem witness_GradeIsFirstFaultInRanking :
    faultsOf LineSettings.reset CureProfile.reset .exit { seg 1 0 with seam := true } = [.seam]
    ∧ (segmentReport .exit [.seam] { seg 1 0 with seam := true }).grade = .seam
    ∧ faultsOf LineSettings.reset CureProfile.reset .evicted (seg 1 0) = [.lost]
    ∧ faultsOf LineSettings.reset CureProfile.reset .exit (seg 1 0) = [] := by decide +kernel

theorem witness_GradeIsFirstFaultInRanking_holds :
    ∃ (holds : Grade → Prop) (g : Segment), (holds .lost ↔ WayOut.exit ≠ .exit)
      ∧ (holds .seam ↔ WayOut.exit = .exit ∧ g.seam = true)
      ∧ (holds .incomplete ↔ WayOut.exit = .exit ∧ g.printed ≠ g.expected)
      ∧ (holds .overcure ↔ WayOut.exit = .exit ∧ (CureProfile.reset.doseMax < g.dose ∨ CureProfile.reset.tScorch < g.peak))
      ∧ (holds .undercure ↔ WayOut.exit = .exit ∧ g.dose < CureProfile.reset.doseMin)
      ∧ (holds .cureUnknown ↔ WayOut.exit = .exit ∧ g.cureUnknown = true)
      ∧ (holds .misregister ↔ WayOut.exit = .exit ∧ ∃ e ∈ g.regs, e.outOfTol = true)
      ∧ (holds .uninspected ↔ WayOut.exit = .exit ∧ LineSettings.reset.inspectionRequired = true
        ∧ ∃ k : ScreenId, k ≠ 0 ∧ inSet g.expected k = true ∧ ∀ e ∈ g.regs, e.screen ≠ k) :=
  ⟨fun f => f = .seam, { seg 1 0 with seam := true }, by decide, by decide, by decide, by decide, by decide, by decide,
    by decide, by decide⟩

theorem witness_LeavingRecordIsTalliedAndReported :
    (running.gradeRecord .exit (seg 1 100000)).reports.length = 1
    ∧ (running.gradeRecord .exit (seg 1 100000)).web.rolls.map Roll.left = [1]
    ∧ ((running.withReports (List.replicate 32 (.roll (rollReport .drain (Roll.opened 9 none))))).gradeRecord .exit
        (seg 1 100000)).reports.length = 32 := by decide +kernel

/-- The three ignored pulses, one at exactly the least spacing, and one at a full roll table. -/
theorem witness_SeamPulseRecordsOrIgnores :
    running.inReset = false ∧ line.web.lineState ≠ .run
    ∧ (running.withLine { running.line with dSeam := 0 }).line.dSeam = 0
    ∧ after .seamPulse (running.withWeb { running.web with lastSeam := some 392001 })
      = running.withWeb { running.web with lastSeam := some 392001 }
    ∧ (after .seamPulse (running.withWeb { running.web with lastSeam := some 392000 })).web.lastSeam = some 520000
    ∧ (after .seamPulse (running.withRolls (List.replicate 8 (Roll.opened 7 none)))).web.rolls.length = 8
    ∧ (after .seamPulse (running.withRolls (List.replicate 7 (Roll.opened 7 none)))).web.rolls.length = 8 := by
  decide +kernel

/-- A seam in the second record, and one at the start of the first, which takes every record from the opening roll and
closes it. -/
theorem witness_SeamPulseRecordsOrIgnores_moved :
    (∀ r ∈ running.web.rolls, r.id ≠ running.web.nextRollId)
    ∧ (after .seamPulse (running.withPos { running.pos with p := 150000 })).web.rolls
      = [{ Roll.opened 1 none with firstSeq := some 1, lastSeq := some 1, left := 1 },
        { Roll.opened 2 (some 170000) with firstSeq := some 2, lastSeq := some 2, left := 1 }]
    ∧ (after .seamPulse (running.withPos { running.pos with p := 80000 })).web.rolls
      = [{ Roll.opened 2 (some 100000) with firstSeq := some 1, lastSeq := some 2, left := 2 }]
    ∧ (after .seamPulse (running.withPos { running.pos with p := 80000 })).reports
      = [.roll (rollReport .nextRoll (Roll.opened 1 none))] := by decide +kernel

/-- A frame of another count, and of no valid header; an expiry with the timer stopped. -/
theorem witness_RingFramesAreReadByTheirChecks :
    (inFlight running).ring.inFlight = some 5 ∧ ¬ headerGood 5 (returned 6 []) ∧ ¬ headerGood 5 []
    ∧ after (.ringFrameReturn (returned 6 [])) (inFlight running) = inFlight running
    ∧ running.ring.timer = false ∧ after (.turnaroundExpiry []) running = running
    ∧ slotReply (returned 5 [(23, 2)]) 23 = some { state := .lowered, phase := 7 } := by decide +kernel

theorem witness_Turnaround_return :
    (inFlight running).turnaroundBy (.ringFrameReturn (returned 5 [(0, 0)])) (slotReply (returned 5 [(0, 0)])) :=
  ⟨rfl, 5, _, rfl, .inl ⟨by decide +kernel, rfl, .inl rfl⟩⟩
theorem witness_Turnaround_expiry_in_frame :
    (inFlight running).turnaroundBy (.turnaroundExpiry ((returned 5 [(0, 0)]).take 4))
      (slotReply ((returned 5 [(0, 0)]).take 4)) :=
  ⟨rfl, 5, _, rfl, .inl ⟨by decide +kernel, rfl, .inr ⟨rfl, rfl⟩⟩⟩
theorem witness_Turnaround_expiry_of_nothing :
    (inFlight running).turnaroundBy (.turnaroundExpiry []) (fun _ => none) :=
  ⟨rfl, 5, [], rfl, .inr ⟨by decide +kernel, rfl, rfl, rfl⟩⟩

/-- Screens given a fault of each cause but LATE, which no turnaround gives. -/
theorem witness_TurnaroundFaultsScreens :
    Screen.gives (scr .anchor .parked) (some { state := .fault, phase := 0 }) .up .drive
    ∧ Screen.gives (scr .anchor .printing) (some { state := .travel, phase := 0 }) .up .dropped
    ∧ Screen.gives { scr .anchor .parked with miss := 3 } none .lost .ring
    ∧ Screen.gives { scr .anchor .parked with miss := 3 } none .up .noReply :=
  ⟨.inl ⟨rfl, rfl, by decide⟩, .inr (.inl ⟨rfl, .inl rfl, .inr rfl⟩), .inr (.inr (.inl ⟨rfl, rfl, rfl, rfl⟩)),
    .inr (.inr (.inr ⟨rfl, rfl, rfl, by decide⟩))⟩

/-- A PRINTING screen given DROPPED leaves the printed set of the record that holds w_1 = 404,000 alone, whose seq the
entry names; where no record holds w_1, no mark is removed and the seq is 0. -/
theorem witness_TurnaroundFaultsScreens_printed :
    ([[seg 1 300000, seg 2 364000], [seg 1 276000, seg 2 340000], [seg 1 275999, seg 2 339999]].map fun queue =>
        let t := after (.ringFrameReturn (returned 5 [(0, 0), (1, 0)]))
          (inFlight ((withEng 1 .printing running).withQueue queue))
        (t.web.queue.map Segment.printed, t.ring.faults))
      = [([3, 1], [{ screen := 1, cause := .dropped, seq := 2, p := 500000, repeats := 1 }]),
        ([3, 3], [{ screen := 1, cause := .dropped, seq := 0, p := 500000, repeats := 1 }]),
        ([3, 3], [{ screen := 1, cause := .dropped, seq := 0, p := 500000, repeats := 1 }])] := by decide +kernel

/-- Zones one tick short of an age and at it; a record one LU short of the oven and one LU in it. -/
theorem witness_DoseTickAgesZonesAndAddsDose :
    line.inReset = false
    ∧ (line.oven.zones.map fun z => ({ z with age := 3 } : Zone).older.freshness) = [.fresh]
    ∧ (line.oven.zones.map fun z => ({ z with age := 4 } : Zone).older.freshness) = [.stale]
    ∧ (line.oven.zones.map fun z => ({ z with age := 28, freshness := .stale } : Zone).older.freshness) = [.stale]
    ∧ (line.oven.zones.map fun z => ({ z with age := 29, freshness := .stale } : Zone).older.freshness) = [.dead]
    ∧ overlap 500000 (seg 1 100000) 400000 1300000 = 0 ∧ overlap 500001 (seg 1 100000) 400000 1300000 = 1 := by
  decide +kernel

/-- A release in each receive state, in HEADER with 0, 7 and 8 bits, and a wrong check word. -/
theorem witness_BrokenFrameIsAnsweredFrame :
    line.inReset = false
    ∧ ([RxState.idle, .done].map fun rx => (Port.release { line.port 0 with rx := rx } 3 0).held.status) = [.none, .none]
    ∧ ([RxState.count, .payload, .check, .discard].map fun rx =>
        (Port.release { line.port 0 with rx := rx } 0 0).held.status) = [.frame, .frame, .frame, .frame]
    ∧ (Port.release { line.port 0 with rx := .header } 0 0).held.status = .none
    ∧ (Port.release { line.port 0 with rx := .header } 7 0xFFFF).held.kind = 0
    ∧ (Port.release { line.port 0 with rx := .header } 8 0xFFFF).held.kind = 0xFF
    ∧ (line.modPort 0 fun q => { q with rx := .check }).port 0 = { Port.reset .line with rx := .check } := by
  decide +kernel

theorem witness_PortRefusesUnknownKindsAndRoles :
    line.hearsAny [] ∧ line.hearsAny (List.replicate 64 0) ∧ (0x02 : Byte) ∉ Kind.all.map Kind.code
    ∧ (line.port 0).role = .line ∧ (line.port 1).role = .oven ∧ (line.port 2).role = .inspect
    ∧ (line.port 3).role = .observe := by decide +kernel

/-- The ports of the line are idle and released, so a frame can begin on each. -/
theorem witness_frames_begin :
    line.hearsAny [] ∧ ∀ n, (line.port n).rx = .idle ∧ (line.port n).sel = false := by decide +kernel

theorem witness_SelectOpensAndClosesFrames :
    (after .resetAssert line).inReset = true ∧ line.inReset = false ∧ (line.port 0).rx = .idle
    ∧ ((after (.selectAsserted 0) line).port 0).rx = .header ∧ ((after (.selectAsserted 0) line).port 0).sel = true := by
  decide +kernel

/-- A port in DONE with PnSEL asserted, as after a request, and one in the middle of a payload. -/
theorem witness_FetchPointsAtHeldReply :
    line.hearsAny [] ∧ (after (.statusGet 0 7 []) line).hearsAny []
    ∧ ((after (.statusGet 0 7 []) line).port 0).rx = .done ∧ ((after (.statusGet 0 7 []) line).port 0).sel = true
    ∧ held 0 (after (.fetch 0 1 []) (after (.statusGet 0 7 []) line)) = held 0 (after (.statusGet 0 7 []) line)
    ∧ held 0 (after (.fetch 0 1 []) (line.modPort 0 fun q => { q with sel := true, rx := .payload })) = (.frame, 0, []) := by
  decide +kernel

/-- A count of 0, 1, 64 and 65, and the last payload word. -/
theorem witness_WordsFillTheReceiveRegisters :
    line.inReset = false
    ∧ (([0, 1, 64, 65] : List Word).map fun w => (Port.word w { Port.reset .line with rx := .count }).rx)
      = [.check, .payload, .payload, .discard]
    ∧ (Port.word 5 { Port.reset .line with rx := .payload, count := 2, payload := [1] }).rx = .check
    ∧ (Port.word 5 { Port.reset .line with rx := .payload, count := 3, payload := [1] }).rx = .payload := by
  decide +kernel

theorem witness_FrameWordByWordIsTheCommand :
    (∃ k : Kind, k.code = 0x78 ∧ Instr.statusGet 0 9 [] = k.command 0 9 [])
    ∧ (∀ k : Kind, k.code ≠ 0x02) :=
  ⟨⟨.statusGet, rfl, rfl⟩, fun k => by cases k <;> decide⟩

theorem witness_FetchShiftsOutHeldReply :
    (after (.fetch 0 1 []) line).inReset = false ∧ ((after (.fetch 0 1 []) line).port 0).rx = .done
    ∧ ((after (.fetch 0 1 []) line).port 0).fetch = some 0 := by decide +kernel

theorem witness_RefusedRequestsChangeNothing :
    line.hearsAny [5] ∧ (∃ t, exec (.runBegin 0 1 [5]) line = .next t ∧ (t.port 0).held.status ≠ .ok) :=
  ⟨by decide +kernel, after (.runBegin 0 1 [5]) line, rfl, by decide +kernel⟩

/-- Runs of no, one, two and three widen words. -/
theorem witness_FieldsAssembleWidenWords :
    fields [9] = [narrow 0 9] ∧ fields [1, 0x8001, 9] = [narrow 0 1, wide 1 1 9]
    ∧ (fields [0x8001, 0xC002, 9]).map Field.value = [1073741824 + 16386 * 32768 + 9]
    ∧ (fields [0xC001, 0x8007, 0x8002, 9]).map Field.signed = [16385 * 1073741824 + 2 * 32768 + 9 - 35184372088832] := by
  decide +kernel

/-- The settings at both ends of their ranges. -/
theorem witness_LinePutReplacesSettings :
    line.hears 0 .line (enc 40000 ++ [0, 1, 0, 0, 0]) ∧ line.web.lineState = .setup
    ∧ (∀ k, line.engState k = .absent ∨ line.engState k = .parked ∨ line.engState k = .faulted)
    ∧ fields (enc 40000 ++ [0, 1, 0, 0, 0]) = [wide 0 1 7232, narrow 2 0, narrow 3 1, narrow 4 0, narrow 5 0, narrow 6 0]
    ∧ (fields (enc 204800 ++ enc 500000 ++ enc 4000000 ++ [1, 1000, 1])).map Field.value
      = [204800, 500000, 4000000, 1, 1000, 1] := by decide +kernel

/-- LINE.PUT refused by each check: the line state, an active screen, too few and too many fields, the last field. -/
theorem witness_LinePut_refused :
    running.web.lineState ≠ .setup ∧ (withEng 1 .ending line).engState 1 = .ending
    ∧ ([running, withEng 1 .ending line].map fun s => held 0 (after (.linePut 0 1 (enc 40000 ++ [0, 1, 0, 0, 0])) s))
      = [(.state, 0, []), (.state, 0, [])]
    ∧ ([enc 40000 ++ [0, 1, 0, 0], enc 40000 ++ [0, 1, 0, 0, 0, 0], enc 40000 ++ [0, 1, 0, 0, 2], [1, 9, 1, 0, 2, 2]].map
        fun p => held 0 (after (.linePut 0 1 p) line))
      = [(.range, 6, []), (.range, 7, []), (.range, 6, []), (.range, 0, [])] := by decide +kernel

/-- A field is the first of a run out of its bounds, the one before it being in range. -/
theorem witness_firstOutOfRange :
    firstOutOfRange [(0, 1), (0, 1)] [narrow 0 1, narrow 1 2] (narrow 1 2) ∧ allWithin [(0, 1)] [narrow 0 1] := by
  have h : allWithin [(0, 1)] [narrow 0 1] := by
    intro i f b hf hb
    cases i with
    | zero => cases hf; cases hb; decide
    | succ i => cases hf
  refine ⟨⟨1, (0, 1), rfl, rfl, .inr (by decide), ?_⟩, h⟩
  intro i f b hf hb
  cases i with
  | zero => cases hf; cases hb; decide
  | succ i => cases hf

/-- A record for screen 2 behind the camera of a run, and one for screen 0 in SETUP. -/
theorem witness_ScreenPutRewritesItsScreen :
    line.hears 0 .line [2, 1, 1, 0, 5000, 3000, 1]
    ∧ fields [2, 1, 1, 0, 5000, 3000, 1]
      = [narrow 0 2, narrow 1 1, narrow 2 1, narrow 3 0, narrow 4 5000, narrow 5 3000, narrow 6 1]
    ∧ held 0 (after (.screenPut 0 1 [2, 1, 1, 0, 5000, 3000, 1]) line) = (.ok, 0, [1, 3])
    ∧ held 0 (after (.screenPut 0 1 [2, 1, 1, 0, 5000, 3000, 1]) running) = (.ok, 0, [1, 3])
    ∧ held 0 (after (.screenPut 0 1 [0, 0, 1, 0, 0, 0]) line) = (.ok, 0, [1, 1])
    ∧ held 0 (after (.screenPut 0 1 [23, 0, 0, 1, 0, 0]) line) = (.ok, 0, [1, 0]) := by decide +kernel

/-- All the premises of the statement, for that record in RUN. -/
theorem witness_ScreenPut_premises (next : Vector Screen 24)
    (h : next = running.screens.set 2 { running.screen 2 with present := true, kind := .anchor, dist := 5000, limit := 3000,
                                                               ext := true }) :
    running.web.lineState ≠ .setup ∧ ((2 : ScreenId) ≠ 0 ∧ ((5000 : Nat) : Int) < running.line.xInsp)
    ∧ (running.screen 0).present = true
    ∧ (∀ m, running.tests 2 m next →
      running.engState m = .absent ∨ running.engState m = .parked ∨ running.engState m = .faulted)
    ∧ (∀ m, inSet running.planned m = true → anchorOf next m = anchorOf running.screens m ∧ anchorOf next m ≠ none) := by
  subst h; unfold State.tests; decide +kernel

/-- SCREEN.PUT refused: for its start index, for no record, field by field, by the camera, by the key-screen law, for an
active screen of the group, for screen 0 in RUN, and for a planned screen that would change its group; a record cut short
behind the camera (assumption log 35). -/
theorem witness_ScreenPut_refused :
    ([[], [24, 0, 1, 0, 9, 9]].map fun p => ((held 0 (after (.screenPut 0 1 p) line)).1, (held 0 (after (.screenPut 0 1 p) line)).2.1))
      = [(.range, 0), (.range, 0)]
    ∧ ([[5], [5, 2, 0, 0, 0, 0], [5, 0, 1, 2], [5, 0, 1, 0, 0, 3001, 0], [5, 1, 1, 0, 0, 0, 2], [5, 1, 1, 0, 0, 0], [0, 0, 1, 1, 5, 0],
        [0, 0, 1, 0, 5, 0], [0, 0, 0, 0, 0, 0]].map fun p => held 0 (after (.screenPut 0 1 p) line))
      = [(.range, 1, [0, 5]), (.range, 1, [0, 5]), (.range, 3, [0, 5]), (.range, 5, [0, 5]), (.range, 6, [0, 5]),
         (.range, 6, [0, 5]), (.range, 3, [0, 0]), (.range, 4, [0, 0]), (.state, 1, [0, 0])]
    ∧ held 0 (after (.screenPut 0 1 [5, 0, 1, 0, 0, 0]) .reset) = (.state, 1, [0, 5])
    ∧ held 0 (after (.screenPut 0 1 ([2, 0, 1, 0] ++ enc 300000 ++ [0])) running) = (.range, 4, [0, 2])
    ∧ held 0 (after (.screenPut 0 1 ([2, 0, 1, 0] ++ enc 300000)) running) = (.range, 6, [0, 2])
    ∧ held 0 (after (.screenPut 0 1 [0, 0, 1, 0, 0, 0]) running) = (.state, 1, [0, 0])
    ∧ held 0 (after (.screenPut 0 1 [1, 0, 0, 0, 0, 0]) (running.withPlanned 2)) = (.state, 1, [0, 1]) := by decide +kernel

/-- A screen that a record tests: the key screen's group for a relative that joins it. -/
theorem witness_tests : running.tests 2 0 (running.regrouped 2 true .relative) ∧ (running.screen 2).present = false :=
  ⟨⟨0, .inr ⟨fun h => absurd h.1 (by decide +kernel), by decide +kernel, by decide +kernel⟩⟩, by decide +kernel⟩

/-- Two records in one request and in two ordinary ones, the second accepted, refused by a field, and cut short. -/
theorem witness_ScreenPutTakesRecordsInTurn :
    line.hears 0 .line [2, 0, 1, 0, 9, 9, 0, 1, 1, 9, 9]
    ∧ fields [2, 0, 1, 0, 9, 9, 0, 1, 1, 9, 9] = narrow 0 2 :: ([narrow 1 0, narrow 2 1, narrow 3 0, narrow 4 9, narrow 5 9]
      ++ [narrow 6 0, narrow 7 1, narrow 8 1, narrow 9 9, narrow 10 9])
    ∧ fields [2, 0, 1, 0, 9, 9] = narrow 0 2 :: [narrow 1 0, narrow 2 1, narrow 3 0, narrow 4 9, narrow 5 9]
    ∧ fields [3, 0, 1, 1, 9, 9] = narrow 0 3 :: [narrow 1 0, narrow 2 1, narrow 3 1, narrow 4 9, narrow 5 9]
    ∧ [narrow 1 0, narrow 2 1, narrow 3 1, narrow 4 9, narrow 5 9].map Field.value
      = [narrow 6 0, narrow 7 1, narrow 8 1, narrow 9 9, narrow 10 9].map Field.value
    ∧ held 0 (after (.screenPut 0 1 [2, 0, 1, 0, 9, 9]) line) = (.ok, 0, [1, 3])
    ∧ ([[0, 1, 1, 9, 9], [0, 1, 2, 9, 9], [0, 1]].map fun b =>
        (held 0 (after (.screenPut 0 1 ([2, 0, 1, 0, 9, 9] ++ b)) line),
         held 0 (after (.screenPut 0 1 (3 :: b)) (after (.screenPut 0 1 [2, 0, 1, 0, 9, 9]) line))))
      = [((.ok, 0, [2, 4]), (.ok, 0, [1, 4])), ((.range, 8, [1, 3]), (.range, 3, [0, 3])),
         ((.range, 8, [1, 3]), (.range, 3, [0, 3]))] := by decide +kernel

theorem witness_ScreenTuneReplacesTunings :
    line.hears 0 .line ([23, 2000, 1, 0, 0, 1] ++ enc 50000 ++ [64, 256, 255, 1000])
    ∧ (fields ([23, 2000, 1, 0, 0, 1] ++ enc 50000 ++ [64, 256, 255, 1000])).map Field.value
      = [23, 2000, 1, 0, 0, 1, 50000, 64, 256, 255, 1000] := by decide +kernel

/-- SCREEN.TUNE refused for its start index, for ignored widen words alone (assumption log 34), with no record, at a second
record out of range and one cut short. -/
theorem witness_ScreenTune_refused :
    fields [0x8001, 0x8001] = []
    ∧ ([[24, 2000, 1, 0, 0, 1], [0x8001, 0x8001]].map fun p =>
        ((held 0 (after (.screenTune 0 1 p) line)).1, (held 0 (after (.screenTune 0 1 p) line)).2.1))
      = [(.range, 0), (.range, 0)]
    ∧ ([[23], [23, 2000, 1, 0, 0, 1, 2000, 65, 0], [23, 2000, 1, 0, 0, 1, 2000]].map fun p =>
        held 0 (after (.screenTune 0 1 p) line))
      = [(.range, 1, [0, 23]), (.range, 7, [1, 0]), (.range, 7, [1, 0])] := by decide +kernel

/-- Requests of one index with no field, one out of range, a second field, and both. -/
theorem witness_ChecksOneIndex :
    line.hearsAny [24, 1] ∧ (line.port 0).role = .line
    ∧ ([[], [24], [1, 7], [24, 7]].map fun p => held 3 (after (.screenGet 3 1 p) line))
      = [(.range, 0, []), (.range, 0, []), (.range, 1, []), (.range, 0, [])] := by decide +kernel

/-- A screen of a group, and one of none. -/
theorem witness_ScreenGetReportsTheScreen :
    line.hearsAny [1] ∧ fields [1] = [narrow 0 1] ∧ anchorOf line.screens 1 = some 0 ∧ anchorOf line.screens 23 = none := by
  decide +kernel

theorem witness_StretchSetStagesClampedStretch :
    line.hears 0 .line [0x7800] ∧ (fields [0x7800]).map Field.signed = [-2048] ∧ (fields [0x77FF]).map Field.signed = [-2049]
    ∧ (fields [0x0801]).map Field.signed = [2049] ∧ (fields [0x0800]).map Field.signed = [2048]
    ∧ (line.port 0).role = .line ∧ (line.port 1).role ≠ .line
    ∧ ([[], [1, 2]] : List (List Word)).map (fun p => held 0 (after (.stretchSet 0 1 p) line))
      = [(.range, 0, []), (.range, 1, [])] := by decide +kernel

theorem witness_GroupAlignPlacesTheGroup :
    line.hears 0 .line [0] ∧ fields [0] = [narrow 0 0] ∧ (line.screen 0).present = true ∧ (line.screen 0).kind = .anchor
    ∧ (∀ k, anchorOf line.screens k = some 0 → line.engState k = .parked ∨ line.engState k = .faulted)
    ∧ containing line.web.queue (line.design 1) = none
    ∧ (containing running.web.queue ((running.withPos { running.pos with p := 196000 }).design 1)).map Segment.seq = some 1 := by
  decide +kernel

theorem witness_GroupAlign_refused :
    (line.screen 1).kind = .relative ∧ (line.screen 5).present = false ∧ (withEng 1 .armed line).engState 1 = .armed
    ∧ ([([1], line), ([5], line), ([0], withEng 1 .armed line)].map fun ps => held 0 (after (.groupAlign 0 1 ps.1) ps.2))
      = [(.state, 0, []), (.state, 0, []), (.state, 0, [])] := by decide +kernel

/-- An anchor that is PARKED, and a relative behind a planned anchor. -/
theorem witness_EngageArmsByTheTables :
    running.hears 0 .line [0] ∧ fields [0] = [narrow 0 0] ∧ running.web.lineState = .run
    ∧ (running.screen 0).present = true ∧ (running.screen 0).kind = .anchor ∧ running.engState 0 = .parked
    ∧ (running.screen 0).ext = false
    ∧ anchorOf running.screens 0 = some 0 ∧ (running.screen 0).aligned = true
    ∧ held 0 (after (.engage 0 1 [1]) (running.withPlanned 1)) = (.ok, 0, [2, 0, 3, 0, 0, 0, 2, 0, 3]) := by decide +kernel

/-- ENGAGE refused by each check in turn. -/
theorem witness_Engage_refused :
    ([([0], line), ([5], running), ([1], running.modScreen 0 fun x => { x with ext := true }), ([0], withEng 0 .faulted running),
        ([1], running), ([0], running.modScreen 0 fun x => { x with aligned := false })].map fun ps =>
      held 0 (after (.engage 0 1 ps.1) ps.2))
      = [(.state, 0, []), (.state, 0, []), (.grouped, 0, []), (.state, 0, []), (.state, 0, []), (.state, 0, [])] := by
  decide +kernel

theorem witness_LiftLowersByTheTable :
    running.hears 0 .line [0] ∧ fields [0] = [narrow 0 0] ∧ (running.screen 0).kind = .anchor ∧ anchorOf running.screens 1 = some 0
    ∧ held 0 (after (.lift 0 1 [0]) ((withEng 1 .armed running).withPlanned 2)) = (.ok, 0, [1, 0, 0, 0, 2, 0, 2, 0, 0]) := by
  decide +kernel

theorem witness_Lift_refused :
    (running.screen 1).kind = .relative ∧ anchorOf running.screens 1 = some 0
    ∧ held 0 (after (.lift 0 1 [1]) (running.modScreen 0 fun x => { x with ext := true })) = (.grouped, 0, []) := by
  decide +kernel

theorem witness_TakesRemoveTheOldest :
    line.hears 0 .line [] ∧ fields [] = [] ∧ line.ring.faults = [] ∧ line.reports = []
    ∧ (line.port 0).role = .line ∧ (line.port 1).role ≠ .line ∧ fields [3] = [narrow 0 3]
    ∧ (after (.runAbort 0 1 []) running).reports.length = 3
    ∧ (held 0 (after (.reportTake 0 2 []) (after (.runAbort 0 1 []) running))).1 = .ok := by decide +kernel

theorem witness_ScreenClearReturnsFaultedScreen :
    ((faultedUp 1 running).withPlanned 3).hears 0 .line [1] ∧ (faultedUp 1 running).engState 1 = .faulted
    ∧ ((faultedUp 1 running).screen 1).last.map DriveReply.state ≠ some .fault
    ∧ ((faultedUp 1 running).screen 1).last ≠ none
    ∧ anchorOf (faultedUp 1 running).screens 1 = some 0 ∧ ((faultedUp 1 running).screen 0).aligned = true
    ∧ held 0 (after (.screenClear 0 1 [1]) (faultedUp 1 running)) = (.ok, 0, [1, 0, 0, 0]) := by decide +kernel

/-- SCREEN.CLEAR refused: not FAULTED, no last reply, a last reply of FAULT, and a planned screen of an unaligned group. -/
theorem witness_ScreenClear_refused :
    ([running, withEng 1 .faulted running,
        (faultedUp 1 running).modScreen 1 fun x => { x with last := some { state := .fault, phase := 0 } },
        ((faultedUp 1 running).withPlanned 2).modScreen 0 fun x => { x with aligned := false }].map fun s =>
      held 0 (after (.screenClear 0 1 [1]) s))
      = [(.state, 0, []), (.state, 0, []), (.state, 0, []), (.state, 0, [])] := by decide +kernel

/-- A refused role, each check failing first in turn, and an accepted RUN.BEGIN. -/
theorem witness_RunBeginChecksThenOpensTheRun :
    line.hearsAny [] ∧ (line.port 0).role = .line ∧ (line.port 1).role ≠ .line
    ∧ [running, State.reset, line.withOven ZoneTable.reset, withEng 1 .ending line,
        line.withLine { line.line with xInsp := 0 }, line.withLine { line.line with xInsp := 96000 },
        line.withLine { line.line with xInsp := 400001 }].map (fun s => held 0 (after (.runBegin 0 1 []) s))
      = [(.state, 0, [1]), (.state, 0, [2]), (.state, 0, [3]), (.state, 0, [4]), (.state, 0, [5]), (.state, 0, [6]),
        (.state, 0, [7])]
    ∧ (held 0 (after (.runBegin 0 1 []) (line.withLine { line.line with xInsp := 400000 }))).1 = .ok
    ∧ (held 0 (after (.runBegin 0 1 []) (line.withLine { line.line with xInsp := 96001 }))).1 = .ok := by decide +kernel

theorem witness_RunDrainLiftsAndDrains :
    running.hears 0 .line [] ∧ fields [] = [] ∧ running.web.lineState = .run ∧ running.web.queue ≠ []
    ∧ (running.withQueue []).web.queue = []
    ∧ (after (.runDrain 0 1 []) ((withEng 0 .printing running).withPlanned 1)).engState 0 = .ending := by decide +kernel

theorem witness_RunAbortEmptiesTheLine :
    running.hears 0 .line [] ∧ running.web.lineState ≠ .setup
    ∧ (after (.runAbort 0 1 []) (withEng 0 .ending running)).engState 0 = .parked
    ∧ (after (.runAbort 0 1 []) (running.withReports
        (List.replicate 30 (.roll (rollReport .drain (Roll.opened 9 none)))))).reports.length = 32 := by decide +kernel

/-- The LOST records are counted in their roll's report; a roll that holds none keeps its tally. -/
theorem witness_RunAbortEmptiesTheLine_rolls :
    (after (.runAbort 0 1 []) (running.withRolls (running.web.rolls ++ [Roll.opened 2 (some 292000)]))).reports.drop 2
      = [.roll { id := 1, reason := .abort, seamAt := none, firstSeq := some 1, lastSeq := some 2, segments := 2,
                  tally := { Tally.zero with lost := 2 }, totalLength := 128000 },
        .roll (rollReport .abort (Roll.opened 2 (some 292000)))] := by decide +kernel

theorem witness_RunDrain_and_RunAbort_refused :
    ([(.runDrain 0 1 [7], running), (.runDrain 0 1 [], line), (.runAbort 0 1 [7], running), (.runAbort 0 1 [], line)].map
      fun cs => held 0 (after cs.1 cs.2))
      = [(.range, 0, []), (.state, 0, []), (.range, 0, []), (.state, 0, [])] := by decide +kernel

/-- A queued seq and one that is gone; both parts; the last LU of a record and the LU after it. -/
theorem witness_WebReadsReportQueuedRecords :
    running.hearsAny [2, 1] ∧ fields [2, 1] = [narrow 0 2, narrow 1 1]
    ∧ (running.web.queue.find? fun q => q.seq == 2) = some (seg 2 164000) ∧ (∀ q ∈ running.web.queue, q.seq ≠ 3)
    ∧ containing running.web.queue 163999 = some (seg 1 100000) ∧ containing running.web.queue 164000 = some (seg 2 164000)
    ∧ containing running.web.queue 99999 = none
    ∧ ([[], [0], [1, 2], [1, 1, 1]] : List (List Word)).map (fun p => held 1 (after (.segmentGet 1 1 p) running))
      = [(.range, 0, []), (.range, 0, []), (.range, 1, []), (.range, 2, [])] := by decide +kernel

/-- Each check of REG.REPORT failing first in turn. -/
theorem witness_RegReportChecksInOrder :
    running.hears 2 .inspect [1, 1, 37] ∧ fields [1, 1, 37] = [narrow 0 1, narrow 1 1, narrow 2 37]
    ∧ ([[1, 1], [1, 1, 37, 4], [0, 1, 37], [1, 24, 37], [3, 1, 37], [1, 0, 37], [1, 2, 37]] : List (List Word)).map
        (fun p => held 2 (after (.regReport 2 1 p) running))
      = [(.range, 2, []), (.range, 3, []), (.range, 0, []), (.range, 1, []), (.gone, 0, []), (.reference, 0, []),
        (.unprinted, 0, [])]
    ∧ held 2 (after (.regReport 2 1 [1, 1, 37]) (running.withQueue [{ seg 1 100000 with camera := false }])) = (.early, 0, [])
    ∧ held 2 (after (.regReport 2 1 [1, 2, 37]) (running.withQueue [{ seg 1 100000 with printed := 7 }])) = (.range, 1, []) := by
  decide +kernel

/-- A report that is stored only, one within the deadband at its edge, one beyond it, and one at the limit. -/
theorem witness_RegReportStoresAndCorrects :
    running.hears 2 .inspect [1, 1, 5] ∧ (running.web.queue.find? fun q => q.seq == 1) = some (seg 1 100000)
    ∧ inSet (seg 1 100000).printed 1 = true ∧ (running.screen 1).present = true
    ∧ (∀ y ∈ running.web.queue, (y.regs.map RegEntry.screen).Pairwise (· < ·))
    ∧ ((held 2 (after (.regReport 2 1 [1, 1, 5]) (running.modChan 1 fun c => { c with lastCorrected := 1 }))).2.2.drop 7)
      = [0, 0, 0, 0, 0, 1]
    ∧ ((held 2 (after (.regReport 2 1 [1, 1, 5]) (running.modScreen 1 fun x =>
        { x with tuning := { x.tuning with deadband := 5 } }))).2.2.drop 7) = [1, 0, 0, 0, 0, 1]
    ∧ ((held 2 (after (.regReport 2 1 [1, 1, 5]) (running.modScreen 1 fun x =>
        { x with tuning := { x.tuning with deadband := 4 }, limit := 2 }))).2.2.drop 7) = [2, 3, 1, 65534, 0, 1] := by
  decide +kernel

/-- The least zone and the greatest bound; a profile at its ends, and one whose minimum exceeds its maximum. -/
theorem witness_OvenPutsReplaceTableAndProfile :
    line.hears 0 .line ([1, 0] ++ enc 220000 ++ [0])
    ∧ fields ([1, 0] ++ enc 220000 ++ [0]) = narrow 0 1 :: narrow 1 0 :: ([wide 2 6 23392] ++ [narrow 4 0])
    ∧ (held 0 (after (.zonePut 0 1 ([1] ++ enc 11780000 ++ enc 12000000 ++ [255])) line)).1 = .ok
    ∧ (line.port 0).role = .line ∧ (line.port 1).role = .oven
    ∧ fields [3000, 4000, 7, 7] = [narrow 0 3000, narrow 1 4000, narrow 2 7, narrow 3 7]
    ∧ held 1 (after (.curePut 1 1 [3000, 4000, 7, 7]) line) = (.ok, 0, [3000, 4000, 0, 7, 0, 7])
    ∧ held 1 (after (.curePut 1 1 [3000, 4000, 8, 7]) line) = (.range, 2, []) := by decide +kernel

/-- ZONE.PUT refused by each check in turn: the line state, the count, the number of fields, B_0, a bound above its range
and one too near, a weight. -/
theorem witness_ZonePut_refused :
    held 0 (after (.zonePut 0 1 [1, 0, 0, 0]) running) = (.state, 0, [])
    ∧ ([[], [0], [9], [1, 0, 7], [1, 0, 7, 0, 5], [1] ++ enc 12000001 ++ [7, 0], [1, 0] ++ enc 12000001 ++ [0],
        [1, 0] ++ enc 219999 ++ [0], [1, 0] ++ enc 220000 ++ [256]].map fun p => held 0 (after (.zonePut 0 1 p) line))
      = [(.range, 0, []), (.range, 0, []), (.range, 0, []), (.range, 3, []), (.range, 4, []), (.range, 1, []), (.range, 2, []),
         (.range, 2, []), (.range, 4, [])] := by decide +kernel

theorem witness_CurePut_and_ZoneSample_refused :
    ([[3000, 4000, 7], [3000, 4000, 7, 7, 1], [3001, 4001, 7, 7]].map fun p => held 1 (after (.curePut 1 1 p) line))
      = [(.range, 3, []), (.range, 4, []), (.range, 0, [])]
    ∧ held 1 (after (.zoneSample 1 1 [5]) .reset) = (.state, 0, [])
    ∧ ([[], [5, 0x8001, 6]].map fun p => held 1 (after (.zoneSample 1 1 p) line)) = [(.range, 0, []), (.range, 2, [])] := by
  decide +kernel

/-- Values on both sides of 4,000, 32,766 and 32,767. -/
theorem witness_ZoneSampleActsZoneByZone :
    line.hears 1 .oven [4000] ∧ line.oven.zones ≠ [] ∧ (fields [4000]).length = line.oven.zones.length
    ∧ ([4000, 4001, 32765, 32766, 32767] : List Word).map (fun w => held 1 (after (.zoneSample 1 1 [w]) line))
      = [(.ok, 0, [1, 0, 4000, 0]), (.ok, 0, [1, 0, 4000, 1]), (.ok, 0, [1, 0, 4000, 1]), (.ok, 0, [1, 2, 1500, 0]),
        (.ok, 0, [1, 0, 1500, 0])] := by decide +kernel

theorem witness_ZoneAndRollSnapshots :
    line.hearsAny [1] ∧ (line.port 2).role = .inspect ∧ (line.port 3).role ≠ .inspect
    ∧ ([[], [0], [2], [1, 1], [1]] : List (List Word)).map (fun p => (held 3 (after (.zoneContents 3 1 p) line)).1)
      = [.range, .range, .range, .range, .ok]
    ∧ line.oven.zones[0]? = some { zEnd := 1300000, weight := 128, temp := 1500, age := 0, freshness := .fresh }
    ∧ ([[], [0], [1, 1], [2], [1]] : List (List Word)).map (fun p => (held 3 (after (.rollGet 3 1 p) running)).1)
      = [.ok, .range, .range, .gone, .ok] := by decide +kernel

theorem witness_StatusGetReportsFiftyWords :
    running.hearsAny [] ∧ fields [] = [] ∧ fields [4] = [narrow 0 4]
    ∧ (∀ k, inSet 1 k = true ↔
      (running.screen k).present = true ∧ (running.screen k).kind = .anchor ∧ (running.screen k).aligned = true)
    ∧ (∀ k, inSet 0 k = true ↔
      (running.screen k).present = true ∧ (running.screen k).chan.applied ≠ (running.screen k).chan.target) := by
  decide +kernel

/-- No field, two fields, the largest set, one beyond it. -/
theorem witness_AttnEnableReplacesEnabledSet :
    line.hearsAny [] ∧ (held 1 (after (.attnEnable 1 1 []) line)) = (.range, 0, [])
    ∧ held 1 (after (.attnEnable 1 1 [1, 1]) line) = (.range, 1, [])
    ∧ held 1 (after (.attnEnable 1 1 (enc 131072)) line) = (.range, 0, [])
    ∧ held 1 (after (.attnEnable 1 1 (enc 131071)) line) = (.ok, 0, [0, 11788, 0, 4])
    ∧ ((after (.attnEnable 1 1 (enc 131071)) line).port 1).line = true := by decide +kernel

theorem witness_AttnTakeReadsAndClearsPending :
    line.hearsAny [] ∧ fields [] = [] ∧ held 1 (after (.attnTake 1 1 [3]) line) = (.range, 0, [])
    ∧ ((after (.attnTake 0 1 []) (line.latch .screenFault)).port 0).latched = 0 := by decide +kernel

/-- The line in RUN with a drive cycle waiting: a state in which each kept property holds and a step answers next. -/
def waiting : State := (running.withPending [.driveCycle]).withPos { running.pos with motion := .moving, still := 7 }

theorem witness_step_answers : ∃ t, step waiting = .next t := ⟨_, rfl⟩

theorem witness_HoldFollows : waiting.HoldFollows := by unfold State.HoldFollows; decide +kernel
theorem witness_LinesFollow : waiting.LinesFollow ∧ waiting.PortsWithinRoles := by
  have h0 : ∀ n e, ¬ hasKind (waiting.port n).latched e ∧ ¬ hasKind (waiting.port n).enabled e := by
    intro n e
    have h1 : (waiting.port n).latched = 0#17 ∧ (waiting.port n).enabled = 0#17 := by revert n; decide +kernel
    rw [h1.1, h1.2]
    exact ⟨hasKind_zero e, hasKind_zero e⟩
  have h2 : ∀ n, (waiting.port n).line = false := by decide +kernel
  refine ⟨fun n => ⟨fun h => ?_, fun h => ?_⟩, fun n e h => ?_, ?_⟩
  · rw [h2 n] at h; cases h
  · obtain ⟨-, e, -, he⟩ := h; exact absurd he (h0 n e).2
  · exact absurd h (by simp [h0 n e])
  · decide +kernel
theorem witness_PositionLawful : waiting.PositionLawful := by unfold State.PositionLawful; decide +kernel
theorem witness_ScreensLawful : waiting.ScreensLawful := by
  unfold State.ScreensLawful Screen.Lawful; decide +kernel
theorem witness_ChannelsInRange : waiting.ChannelsInRange := by
  unfold State.ChannelsInRange lengthInRange; decide +kernel
theorem witness_PlannedFollows : waiting.PlannedFollows := by unfold State.PlannedFollows; decide +kernel
theorem witness_QueueInOrder : waiting.QueueInOrder := by
  refine ⟨⟨by decide +kernel, trivial⟩, by decide +kernel, by decide +kernel, by decide +kernel, by decide +kernel⟩
theorem witness_ListsBounded : waiting.ListsBounded := by unfold State.ListsBounded; decide +kernel

/-- The queue of the line stands as its roll table says. -/
theorem witness_RollsFollow : waiting.RollsFollow := by
  refine ⟨⟨rfl, trivial⟩, by decide +kernel, by decide +kernel, trivial, fun _ => ⟨_, rfl, rfl⟩, ?_, by decide +kernel,
    by decide +kernel⟩
  intro g hg
  have h : g.length = 64000 ∧ g.roll = 1 := by revert g; decide +kernel
  rw [h.1, h.2]
  exact ⟨by decide, by decide, [], _, [], rfl, rfl, .inl rfl, fun x hx => by cases hx⟩

end Sys2Proof.Tests
end

section
/-! PROOFS. Which kinds each stage of a drive cycle can latch, what the Position Counter makes of an edge and of a drive
cycle, and the two statements of spec/01. -/

namespace Sys2Proof.Machine

/-! ### Which kinds an operation can latch -/

/-- Between two states the latched sets of the ports agree in every kind outside K. -/
def LatchesOnly (K : List EventKind) (s t : State) : Prop :=
  ∀ e, e ∉ K → ∀ n, hasKind (t.port n).latched e ↔ hasKind (s.port n).latched e

theorem LatchesOnly.of_ports {K : List EventKind} {s t : State} (h : t.ports = s.ports) : LatchesOnly K s t := by
  intro e _ n
  unfold State.port
  rw [h]

theorem LatchesOnly.refl (K : List EventKind) (s : State) : LatchesOnly K s s := LatchesOnly.of_ports rfl

theorem LatchesOnly.mono {K L : List EventKind} {s t : State} (h : LatchesOnly K s t) (hKL : ∀ e ∈ K, e ∈ L) :
    LatchesOnly L s t :=
  fun e he => h e fun hK => he (hKL e hK)

theorem LatchesOnly.trans {K L : List EventKind} {s t u : State} (h1 : LatchesOnly K s t) (h2 : LatchesOnly L t u) :
    LatchesOnly (K ++ L) s u := by
  intro e he n
  rw [List.mem_append, not_or] at he
  exact (h2 e he.2 n).trans (h1 e he.1 n)

theorem LatchesOnly.withQueue (s : State) (q : List Segment) : LatchesOnly [] s (s.withQueue q) := LatchesOnly.of_ports rfl
theorem LatchesOnly.withRolls (s : State) (r : List Roll) : LatchesOnly [] s (s.withRolls r) := LatchesOnly.of_ports rfl
theorem LatchesOnly.withWeb (s : State) (w : WebMap) : LatchesOnly [] s (s.withWeb w) := LatchesOnly.of_ports rfl
theorem LatchesOnly.withRing (s : State) (r : Ring) : LatchesOnly [] s (s.withRing r) := LatchesOnly.of_ports rfl
theorem LatchesOnly.withPhase (s : State) (p : PhaseShared) : LatchesOnly [] s (s.withPhase p) := LatchesOnly.of_ports rfl
theorem LatchesOnly.modEng (k : ScreenId) (f : Engagement → Engagement) (s : State) : LatchesOnly [] s (s.modEng k f) :=
  LatchesOnly.of_ports rfl
theorem LatchesOnly.modChan (k : ScreenId) (f : Channel → Channel) (s : State) : LatchesOnly [] s (s.modChan k f) :=
  LatchesOnly.of_ports rfl
theorem LatchesOnly.mapScreens (f : ScreenId → Screen → Screen) (s : State) : LatchesOnly [] s (s.mapScreens f) :=
  LatchesOnly.of_ports (State.mapScreens_ports f s)

theorem LatchesOnly.foldl {α : Type} {K : List EventKind} (f : State → α → State) (h : ∀ s a, LatchesOnly K s (f s a))
    (l : List α) (s : State) : LatchesOnly K s (l.foldl f s) := by
  induction l generalizing s with
  | nil => exact LatchesOnly.refl K s
  | cons a l ih => exact ((h s a).trans (ih (f s a))).mono (by simp)

theorem LatchesOnly.latchIf (c : Bool) (e : EventKind) (s : State) : LatchesOnly [e] s (s.latchIf c e) := by
  intro e' he n
  rw [State.hasKind_latchIf]
  simp [List.mem_singleton.not.mp he]

theorem LatchesOnly.latch (e : EventKind) (s : State) : LatchesOnly [e] s (s.latch e) := LatchesOnly.latchIf true e s

/-! #### The Exit Grader -/

theorem LatchesOnly.offer (r : Report) (s : State) : LatchesOnly [.reportLost] s (s.offer r) := by
  rcases State.offer_cases r s with ⟨-, h⟩ | ⟨-, h⟩ <;> rw [h]
  · exact LatchesOnly.of_ports rfl
  · exact LatchesOnly.latch _ s

theorem LatchesOnly.gradeRecord (way : WayOut) (g : Segment) (s : State) :
    LatchesOnly [.reportLost, .cureFault] s (s.gradeRecord way g) :=
  ((LatchesOnly.withRolls s _).trans (LatchesOnly.offer _ _)).trans (LatchesOnly.latchIf _ _ _)

theorem LatchesOnly.closeRoll (reason : CloseReason) (r : Roll) (s : State) :
    LatchesOnly [.reportLost, .rollClosed] s (s.closeRoll reason r) :=
  ((LatchesOnly.withRolls s _).trans (LatchesOnly.offer _ _)).trans (LatchesOnly.latch _ _)

theorem LatchesOnly.closeAllRolls (reason : CloseReason) (s : State) :
    LatchesOnly [.reportLost, .rollClosed] s (s.closeAllRolls reason) :=
  LatchesOnly.foldl _ (fun u r => LatchesOnly.closeRoll reason r u) _ s

theorem LatchesOnly.nextRollTest (id : Nat) (s : State) :
    LatchesOnly [.reportLost, .rollClosed] s (s.nextRollTest id) := by
  rcases State.nextRollTest_cases id s with h | ⟨r, -, -, -, h⟩ <;> rw [h]
  · exact LatchesOnly.refl _ s
  · exact LatchesOnly.closeRoll _ r s

/-! #### The Web Map -/

theorem LatchesOnly.evict (s : State) :
    LatchesOnly [.reportLost, .cureFault, .segmentEvicted, .rollClosed] s s.evict := by
  rcases State.evict_cases s with ⟨-, h⟩ | ⟨g, rest, -, h⟩ <;> rw [h]
  · exact LatchesOnly.refl _ s
  · exact ((((LatchesOnly.withQueue s _).trans (LatchesOnly.gradeRecord _ _ _)).trans (LatchesOnly.latch _ _)).trans
      (LatchesOnly.nextRollTest _ _)).mono (by decide)

theorem LatchesOnly.advanceSeq (s : State) : LatchesOnly [.seqExhausted] s s.advanceSeq := by
  unfold State.advanceSeq
  split
  · exact (LatchesOnly.withWeb s _).trans (LatchesOnly.latch _ _)
  · exact (LatchesOnly.withWeb s _).mono (by decide)

theorem LatchesOnly.appendSegment (s : State) :
    LatchesOnly [.reportLost, .rollClosed, .seqExhausted] s s.appendSegment :=
  (((LatchesOnly.withQueue s _).trans (LatchesOnly.withRolls _ _)).trans
    (LatchesOnly.foldl (fun u (r : Roll) => u.nextRollTest r.id) (fun u r => LatchesOnly.nextRollTest r.id u) _ _)).trans
      (LatchesOnly.advanceSeq _)

theorem LatchesOnly.create (s : State) :
    LatchesOnly [.reportLost, .cureFault, .segmentEvicted, .rollClosed, .seqExhausted] s s.create := by
  rcases State.create_cases s with ⟨-, h⟩ | ⟨-, -, h⟩ | ⟨-, -, h⟩ <;> rw [h]
  · exact (LatchesOnly.latch _ s).mono (by decide)
  · exact (LatchesOnly.appendSegment s).mono (by decide)
  · exact ((LatchesOnly.evict s).trans (LatchesOnly.appendSegment _)).mono (by decide)

theorem LatchesOnly.cameraTest (s : State) : LatchesOnly [.segmentAtCamera] s s.cameraTest :=
  (LatchesOnly.withQueue s _).trans (LatchesOnly.latchIf _ _ _)

theorem LatchesOnly.drainIfEmpty (s : State) :
    LatchesOnly [.reportLost, .rollClosed, .drainDone] s s.drainIfEmpty := by
  unfold State.drainIfEmpty
  split
  · exact ((LatchesOnly.closeAllRolls .drain s).trans (LatchesOnly.latch .drainDone _)).trans (LatchesOnly.withWeb _ _)
  · exact LatchesOnly.refl _ s

theorem LatchesOnly.exitHead (g : Segment) (rest : List Segment) (s : State) :
    LatchesOnly [.reportLost, .cureFault, .rollClosed, .drainDone] s (s.exitHead g rest) :=
  ((((LatchesOnly.withQueue s _).trans (LatchesOnly.gradeRecord _ _ _)).trans (LatchesOnly.nextRollTest _ _)).trans
    (LatchesOnly.drainIfEmpty _)).mono (by decide)

theorem LatchesOnly.exitLoop (x : Int) (n : Nat) (s : State) :
    LatchesOnly [.reportLost, .cureFault, .rollClosed, .drainDone] s (s.exitLoop x n) := by
  induction n generalizing s with
  | zero => exact LatchesOnly.refl _ s
  | succ n ih =>
    unfold State.exitLoop
    split
    · exact LatchesOnly.refl _ s
    · split
      · exact ((LatchesOnly.exitHead _ _ s).trans (ih _)).mono (by decide)
      · exact LatchesOnly.refl _ s

theorem LatchesOnly.exitTest (s : State) :
    LatchesOnly [.reportLost, .cureFault, .rollClosed, .drainDone] s s.exitTest := by
  unfold State.exitTest
  split
  · exact LatchesOnly.refl _ s
  · exact LatchesOnly.exitLoop _ _ s

theorem LatchesOnly.webTests (s : State) :
    LatchesOnly [.segmentAtCamera, .reportLost, .cureFault, .rollClosed, .drainDone] s s.webTests := by
  unfold State.webTests
  split
  · exact LatchesOnly.refl _ s
  · exact (LatchesOnly.cameraTest s).trans (LatchesOnly.exitTest _)

/-! #### Screen faults, crossings and the channel advance -/

theorem LatchesOnly.engageFault (k : ScreenId) (c : FaultCause) (s : State) : LatchesOnly [] s (s.engageFault k c) := by
  unfold State.engageFault
  split <;> exact LatchesOnly.of_ports rfl

theorem LatchesOnly.mark (k : ScreenId) (newGround : Bool) (s : State) : LatchesOnly [] s (s.mark k newGround) := by
  unfold State.mark
  split <;> exact LatchesOnly.of_ports rfl

theorem LatchesOnly.screenFault (k : ScreenId) (c : FaultCause) (seq : Nat) (s : State) :
    LatchesOnly [.screenFault] s (s.screenFault k c seq) := by
  unfold State.screenFault
  split
  · exact LatchesOnly.refl _ s
  · exact ((LatchesOnly.engageFault k c s).trans (LatchesOnly.withRing _ _)).trans (LatchesOnly.latchIf _ _ _)

/-- A crossing latches through a LATE fault alone (R62). -/
theorem LatchesOnly.cross (k : ScreenId) (newGround : Bool) (s : State) :
    LatchesOnly [.screenFault] s (s.cross k newGround) := by
  have hmark : ∀ u : State, LatchesOnly [.screenFault] u (u.mark k newGround) :=
    fun u => (LatchesOnly.mark k newGround u).mono (by decide)
  unfold State.cross
  cases s.engState k with
  | lowering =>
    dsimp only
    split
    · exact (LatchesOnly.modEng k _ s).trans (hmark _)
    · exact LatchesOnly.screenFault k _ _ s
  | printing => exact hmark s
  | ending =>
    dsimp only
    split
    · exact (LatchesOnly.modEng k _ s).mono (by decide)
    · exact hmark s
  | absent | parked | armed | faulted => exact LatchesOnly.refl _ s

/-- The kinds that the stages of a drive cycle after the Position Counter's can latch; MOTION_CLAMP is none of them. -/
def cycleKinds : List EventKind :=
  [.screenFault, .reportLost, .cureFault, .segmentEvicted, .rollClosed, .seqExhausted, .segmentAtCamera, .drainDone]

theorem LatchesOnly.keyCrossing (r : Int) (s : State) : LatchesOnly cycleKinds s (s.keyCrossing r) :=
  ((((LatchesOnly.modChan 0 _ s).trans (LatchesOnly.withPhase _ _)).trans (LatchesOnly.cross 0 true _)).trans
    (LatchesOnly.create _)).mono (by decide)

theorem LatchesOnly.advanceChannel (k : ScreenId) (dw : Int) (s : State) :
    LatchesOnly cycleKinds s (s.advanceChannel k dw) := by
  rcases State.advanceChannel_cases k dw s with ⟨-, h⟩ | ⟨-, -, h⟩ | ⟨-, -, -, h⟩ | ⟨-, -, -, h⟩ <;> rw [h]
  · exact LatchesOnly.refl _ s
  · split
    · exact LatchesOnly.keyCrossing _ s
    · exact ((LatchesOnly.modChan k _ s).trans (LatchesOnly.cross k false _)).mono (by decide)
  · exact (LatchesOnly.modChan k _ s).mono (by decide)
  · exact (LatchesOnly.modChan k _ s).mono (by decide)

theorem LatchesOnly.advanceChannels (deltaP : Int) (s : State) :
    LatchesOnly cycleKinds s (s.advanceChannels deltaP) :=
  (LatchesOnly.mapScreens _ s).trans (LatchesOnly.foldl _ (fun u k => LatchesOnly.advanceChannel k _ u) _ _)

/-! #### The evaluations at the end of a command -/

theorem LatchesOnly.evalLines (s : State) : LatchesOnly [] s s.evalLines := by
  intro e _ n
  rw [State.port_evalLines]

/-- Everything in a drive cycle after the Position Counter's advance. -/
theorem LatchesOnly.driveCycle (s : State) : LatchesOnly cycleKinds s.advancePosition s.driveCycle := by
  have hchannels := LatchesOnly.advanceChannels s.pos.deltaP s.advancePosition
  have hwindows : ∀ u : State, LatchesOnly [] u u.windowTests := fun u => LatchesOnly.mapScreens _ u
  have hsetpoints : ∀ u : State, LatchesOnly [] u u.formSetpoints := fun u => LatchesOnly.mapScreens _ u
  have hsend : ∀ u : State, LatchesOnly [] u u.sendFrame.evalHold :=
    fun u => (LatchesOnly.withRing u _).trans (LatchesOnly.withRing _ _)
  exact (((((hchannels.trans (hwindows _)).trans (hsetpoints _)).trans (LatchesOnly.webTests _)).trans (hsend _)).trans
    (LatchesOnly.evalLines _)).mono (by decide)

/-! ### An encoder edge (R4) -/

section
variable (x : Position) (a b : Bool)

/-- An edge writes the input levels, and besides them the raw count and the lost-edge flag alone. -/
theorem Position.edge_eq :
    x.edge a b = { x with encA := a, encB := b, raw := (x.edge a b).raw, lostEdge := (x.edge a b).lostEdge } := by
  unfold Position.edge
  dsimp only
  split_ifs <;> rfl

theorem Position.edge_of_none (ha : a = x.encA) (hb : b = x.encB) : x.edge a b = x := by
  subst ha hb
  simp [Position.edge]

theorem Position.edge_of_both (ha : a ≠ x.encA) (hb : b ≠ x.encB) :
    x.edge a b = { x with encA := a, encB := b, lostEdge := true } :=
  if_pos ⟨ha, hb⟩

theorem Position.edge_of_encA (ha : a ≠ x.encA) (hb : b = x.encB) :
    x.edge a b = { x with encA := a, encB := b, raw := if a = b then x.raw - 1 else x.raw + 1 } := by
  unfold Position.edge
  dsimp only
  rw [if_neg fun h => h.2 hb, if_pos ha]
  simp only [ne_eq, ite_not]

theorem Position.edge_of_encB (ha : a = x.encA) (hb : b ≠ x.encB) :
    x.edge a b = { x with encA := a, encB := b, raw := if a = b then x.raw + 1 else x.raw - 1 } := by
  unfold Position.edge
  dsimp only
  rw [if_neg fun h => h.1 ha, if_neg fun h => h ha, if_pos hb]

end

theorem exec_encoderEdge_inReset (a b : Bool) (s : State) (h : s.inReset = true) :
    exec (.encoderEdge a b) s = .next (s.withPos { s.pos with encA := a, encB := b }) :=
  congrArg Host.Outcome.next (if_pos h)

theorem exec_encoderEdge_running (a b : Bool) (s : State) (h : s.inReset = false) :
    exec (.encoderEdge a b) s = .next (s.withPos (s.pos.edge a b)) :=
  congrArg Host.Outcome.next (if_neg (by simp [h]))

/-! ### The Position Counter at a drive cycle (R5, R6, R8) -/

theorem clamp_of_lt {low high v : Int} (hv : v < low) : clamp low high v = low := by
  unfold clamp; omega

theorem clamp_of_gt {low high v : Int} (h : low ≤ high) (hv : high < v) : clamp low high v = high := by
  unfold clamp; omega

section
variable (x : Position)

/-- The change is a signed 32-bit value (R5). -/
theorem Position.change_mem : -2147483648 ≤ x.change ∧ x.change ≤ 2147483647 := by
  have hlow := BitVec.le_toInt (x.raw - x.taken)
  have hhigh := BitVec.toInt_lt (x := x.raw - x.taken)
  unfold Position.change
  omega

/-- The change is the difference of the counts modulo 2^32 (R5). -/
theorem Position.change_emod : (x.change - ((x.raw.toNat : Int) - x.taken.toNat)) % 4294967296 = 0 := by
  have hnat := BitVec.toNat_sub x.raw x.taken
  have hint := BitVec.toInt_eq_toNat_cond (x.raw - x.taken)
  have htaken := x.taken.isLt
  unfold Position.change
  rw [hint]
  split <;> omega

/-- A drive cycle takes the raw count, clears the lost-edge flag, moves P and leaves the encoder's registers. -/
theorem Position.advance_eq :
    x.advance = { x with
      taken := x.raw, lostEdge := false, p := x.newP, still := x.advance.still, motion := x.advance.motion } := by
  unfold Position.advance
  dsimp only
  split_ifs <;> rfl

theorem Position.advance_p : x.advance.p = x.newP := by rw [x.advance_eq]

theorem Position.advance_counts :
    x.advance.raw = x.raw ∧ x.advance.taken = x.raw ∧ x.advance.lostEdge = false ∧ x.advance.encA = x.encA
    ∧ x.advance.encB = x.encB := by
  rw [x.advance_eq]
  exact ⟨rfl, rfl, rfl, rfl, rfl⟩

theorem Position.advance_of_moved (h : x.newP ≠ x.p) : x.advance.still = 0 ∧ x.advance.motion = .moving := by
  have hd : x.deltaP ≠ 0 := fun h0 => h (Int.sub_eq_zero.mp h0)
  unfold Position.advance
  dsimp only
  rw [if_pos hd]
  exact ⟨rfl, rfl⟩

/-- With P unchanged the still counter rises to at most 200, and the web is still once it stands there (R8). -/
theorem Position.advance_of_still (h : x.newP = x.p) :
    x.advance.still = min 200 (x.still + 1)
    ∧ x.advance.motion = if 199 ≤ x.still then .still else x.motion := by
  have hd : ¬ x.deltaP ≠ 0 := fun h0 => h0 (Int.sub_eq_zero.mpr h)
  have hfull : min 200 (x.still + 1) = 200 ↔ 199 ≤ x.still := by omega
  unfold Position.advance
  dsimp only
  rw [if_neg hd]
  simp only [hfull, and_self]

/-- The three causes of MOTION_CLAMP (R6). -/
theorem Position.motionClamp_iff :
    x.motionClamp = true ↔ x.change ≠ x.clamped ∨ x.newP ≠ x.p + x.clamped ∨ x.lostEdge = true := by
  simp [Position.motionClamp, or_assoc]

end

theorem exec_driveCycle_running (s : State) (h : s.inReset = false) : exec .driveCycle s = .next s.driveCycle :=
  congrArg Host.Outcome.next (if_neg (by simp [h]))

@[simp] theorem State.sendFrame_pos (s : State) : s.sendFrame.pos = s.pos := rfl

theorem CycleOnly.pos {s t : State} (h : CycleOnly s t) : t.pos = s.pos := by rw [h.1]

/-- No later stage of a drive cycle touches the Position Counter. -/
theorem State.driveCycle_pos (s : State) : s.driveCycle.pos = s.pos.advance := by
  unfold State.driveCycle
  rw [State.evalLines_pos, State.evalHold_pos, State.sendFrame_pos, (CycleOnly.beforeSend _ _).pos]
  exact State.latchIf_pos _ _ _

/-- Of a drive cycle's stages the Position Counter's alone raises MOTION_CLAMP. -/
theorem State.driveCycle_motionClamp (s : State) (n : PortId) :
    hasKind (s.driveCycle.port n).latched .motionClamp ↔
      hasKind (s.port n).latched .motionClamp ∨ (s.pos.motionClamp = true ∧ (s.port n).role.sees .motionClamp) := by
  rw [LatchesOnly.driveCycle s .motionClamp (by decide) n]
  unfold State.advancePosition
  simp only [State.hasKind_latchIf, State.port_withPos, true_and]

end Sys2Proof.Machine

/-! ### The statements -/

open Sys2Proof Sys2Proof.Machine

/-- Settles O5: the four cases of R4, by which of the two inputs changed. -/
theorem encoderEdgeCountsByDirection : Obligations.EncoderEdgeCountsByDirection := by
  unfold Obligations.EncoderEdgeCountsByDirection
  intro a b s
  rcases Bool.eq_false_or_eq_true s.inReset with h | h
  · exact ⟨_, exec_encoderEdge_inReset a b s h, fun _ => rfl, fun hrun => by simp [h] at hrun⟩
  · refine ⟨_, exec_encoderEdge_running a b s h, fun hreset => by simp [h] at hreset, fun _ =>
      ⟨?_, fun ha hb => ?_, fun ha hb => ?_, fun ha hb => ?_, fun ha hb => ?_⟩⟩
    · exact congrArg s.withPos (s.pos.edge_eq a b)
    · rw [State.withPos_pos, s.pos.edge_of_none a b ha hb]
      exact ⟨rfl, rfl⟩
    · rw [State.withPos_pos, s.pos.edge_of_both a b ha hb]
      exact ⟨rfl, rfl⟩
    · rw [State.withPos_pos, s.pos.edge_of_encA a b ha hb]
      exact ⟨rfl, rfl⟩
    · rw [State.withPos_pos, s.pos.edge_of_encB a b ha hb]
      exact ⟨rfl, rfl⟩

/-- Settles O6: the Position Counter's advance decides every register, and no later stage of the cycle latches
MOTION_CLAMP. -/
theorem driveCycleMovesPosition : Obligations.DriveCycleMovesPosition := by
  unfold Obligations.DriveCycleMovesPosition
  intro s h
  obtain ⟨hlow, hhigh⟩ := s.pos.change_mem
  obtain ⟨hraw, htaken, hlost, hencA, hencB⟩ := s.pos.advance_counts
  refine ⟨s.driveCycle, s.pos.change, s.pos.clamped, exec_driveCycle_running s h, hlow, hhigh, s.pos.change_emod,
    clamp_of_lt, clamp_of_gt (by decide), clamp_of_mem, ?_⟩
  simp only [State.driveCycle_pos, State.driveCycle_motionClamp, Position.advance_p, Position.motionClamp_iff]
  exact ⟨clamp_of_lt, clamp_of_gt (by decide), clamp_of_mem, hraw, htaken, hlost, hencA, hencB,
    s.pos.advance_of_moved, s.pos.advance_of_still, fun n => by rw [and_comm]⟩

end

section
/-! PROOFS. Requests of one operand, as far as their payload decides the answer, and the two requests of the Phase
Generator: STRETCH.SET and GROUP.ALIGN. -/

namespace Sys2Proof.Machine

/-! ### Payloads of one index or one signed value -/

section
variable {payload : List Word} {f g : Field} {rest : List Field}

theorem oneScreen_of_nil (h : fields payload = []) : oneScreen payload = .error (tooFew payload) := by
  simp [oneScreen, h]

theorem oneScreen_of_outside (h : fields payload = f :: rest) (hf : 24 ≤ f.value) :
    oneScreen payload = .error (naming f) := by
  simp [oneScreen, h, Nat.not_lt.mpr hf]

theorem oneScreen_of_second (h : fields payload = f :: g :: rest) (hf : f.value < 24) :
    oneScreen payload = .error (naming g) := by
  simp [oneScreen, h, hf]

theorem oneScreen_of_index {a : ScreenId} (h : fields payload = [f]) (hf : f.value = a.val) :
    oneScreen payload = .ok a := by
  simp [oneScreen, h, hf]

theorem oneSigned_of_nil (h : fields payload = []) : oneSigned payload = .error (tooFew payload) := by
  simp [oneSigned, h]

theorem oneSigned_of_second (h : fields payload = f :: g :: rest) : oneSigned payload = .error (naming g) := by
  simp [oneSigned, h]

theorem oneSigned_of_field (h : fields payload = [f]) : oneSigned payload = .ok f.signed := by
  simp [oneSigned, h]

end

/-- A request whose owner answers what `oneScreen` refuses, and changes nothing then, checks its one index. -/
theorem Kind.checksOneIndex_of_oneScreen {k : Kind} (hpermits : ∀ r, (k ≠ .screenGet → r = .line) → permits k r = true)
    (htake : ∀ n payload s e, oneScreen payload = .error e → taker k n payload s = (s, e)) : k.ChecksOneIndex := by
  intro s n tag payload hears hline refused hrefused
  have hnaming : ∀ i, oneScreen payload = .error (refuse .range i) → refused i := fun i h =>
    (hrefused i).mpr (exec_unchanged hears (hpermits _ hline) (htake n payload _ _ h))
  exact ⟨fun h => hnaming _ (oneScreen_of_nil h),
    fun f h hf => hnaming _ (oneScreen_of_outside h hf),
    fun f g rest h hf => hnaming _ (oneScreen_of_second h hf),
    fun f g rest h hf => .inl (hnaming _ (oneScreen_of_outside h hf))⟩

/-! ### STRETCH.SET (R34) -/

/-- A clamp by its three cases, as R34 gives the staged stretch. -/
theorem clamp_eq_of_cases {low high v w : Int} (h : low ≤ high) (hlow : v < low → w = low) (hhigh : high < v → w = high)
    (hmid : low ≤ v → v ≤ high → w = v) : clamp low high v = w := by
  unfold clamp
  omega

theorem takeStretchSet_error (n : PortId) {payload : List Word} {s : State} {e : Answer}
    (h : oneSigned payload = .error e) : takeStretchSet n payload s = (s, e) := by
  simp [takeStretchSet, h]

theorem takeStretchSet_ok (n : PortId) {payload : List Word} {s : State} {v : Int} (h : oneSigned payload = .ok v) :
    takeStretchSet n payload s = (s.stageStretch (clamp (-2048) 2048 v),
      accept (words1 (clamp (-2048) 2048 v) ++ words1 (if clamp (-2048) 2048 v = v then 0 else 1)
        ++ words2 (stagedRepeat s.line.lScr (clamp (-2048) 2048 v)))) := by
  simp [takeStretchSet, h, flagWord_eq]

/-! ### GROUP.ALIGN: its checks (R46) -/

/-- GROUP.ALIGN finds every screen of the group named by a PARKED or FAULTED. -/
def State.groupAtRest (s : State) (a : ScreenId) : Prop :=
  ∀ k, anchorOf s.screens k = some a → s.engState k = .parked ∨ s.engState k = .faulted

theorem isAnchor_iff (x : Screen) : isAnchor x = true ↔ x.present = true ∧ x.kind = .anchor := by
  simp [isAnchor]

/-- The group's test of `groupAlignParse`. -/
theorem State.groupAtRest_iff (s : State) (a : ScreenId) :
    s.groupAtRest a ↔
      (membersOf s.screens a).any (fun j => s.engState j != .parked && s.engState j != .faulted) = false := by
  simp [State.groupAtRest, mem_membersOf, or_iff_not_imp_left]

section
variable {payload : List Word} {s : State} {a : ScreenId}

theorem groupAlignParse_error {e : Answer} (h : oneScreen payload = .error e) :
    groupAlignParse payload s = .error e := by
  simp [groupAlignParse, h]

theorem groupAlignParse_ok (h : oneScreen payload = .ok a) (hanchor : isAnchor (s.screen a) = true)
    (hrest : s.groupAtRest a) : groupAlignParse payload s = .ok a := by
  rw [State.groupAtRest_iff] at hrest
  simp [groupAlignParse, h, hanchor, hrest]

theorem groupAlignParse_state (h : oneScreen payload = .ok a)
    (hbad : ¬ isAnchor (s.screen a) = true ∨ ¬ s.groupAtRest a) :
    groupAlignParse payload s = .error (refuse .state 0) := by
  rw [State.groupAtRest_iff] at hbad
  unfold groupAlignParse
  rw [h]
  rcases hbad with hanchor | hbusy
  · simp [hanchor]
  · simp [hbusy]

theorem takeGroupAlign_error (n : PortId) {e : Answer} (h : groupAlignParse payload s = .error e) :
    takeGroupAlign n payload s = (s, e) := by
  simp [takeGroupAlign, h]

theorem takeGroupAlign_ok (n : PortId) (h : groupAlignParse payload s = .ok a) :
    takeGroupAlign n payload s = (s.alignGroup a, accept (alignWords a s (s.alignGroup a))) := by
  simp [takeGroupAlign, h]

end

/-! ### GROUP.ALIGN: its effect (R47) -/

theorem State.places_iff (s : State) (a k : ScreenId) :
    s.places a k = true ↔ k ≠ 0 ∧ anchorOf s.screens k = some a := by
  simp [State.places]

theorem State.places_eq (s : State) (a : ScreenId) :
    s.places a = fun k => decide (k ≠ 0 ∧ anchorOf s.screens k = some a) := by
  funext k
  rw [Bool.eq_iff_iff, decide_eq_true_iff, State.places_iff]

theorem State.placed_of_containing {s : State} {k : ScreenId} {g : Segment} (c : Channel)
    (h : containing s.web.queue (s.design k) = some g) :
    s.placed k c = { c with r := s.design k - g.start, lcur := g.length, gear := 4294967296 / g.length } := by
  simp [State.placed, h, gearOf]

theorem State.placed_of_outside {s : State} {k : ScreenId} (c : Channel)
    (h : containing s.web.queue (s.design k) = none) :
    s.placed k c = { c with
      r := (s.design k - s.pos.p + (s.screen 0).chan.r) % (s.screen 0).chan.lcur,
      lcur := (s.screen 0).chan.lcur, gear := 4294967296 / (s.screen 0).chan.lcur } := by
  simp [State.placed, h, gearOf]

section
variable (s : State) (a k : ScreenId)

/-- GROUP.ALIGN writes the screens alone. -/
theorem State.alignGroup_eq : s.alignGroup a = { s with screens := (s.alignGroup a).screens } := rfl

/-- Of a screen GROUP.ALIGN writes the channel, where it places the screen, and the flag, where it is the anchor. -/
theorem State.screen_alignGroup :
    (s.alignGroup a).screen k = { s.screen k with
      chan := if s.places a k then s.placed k (s.screen k).chan else (s.screen k).chan,
      aligned := decide (k = a) || (s.screen k).aligned } := by
  unfold State.alignGroup
  rw [State.screen_mapScreens]
  cases s.places a k <;> by_cases hk : k = a <;> simp [hk]

end

/-! ### GROUP.ALIGN as a command -/

section
variable {s : State} {n : PortId} {tag : Byte} {payload : List Word}

/-! The checks, the effect and the reply words read nothing of a port. -/

theorem groupAlignParse_receiveFrame (kind : Byte) :
    groupAlignParse payload (s.receiveFrame n kind tag payload) = groupAlignParse payload s := rfl

theorem receiveFrame_alignGroup (a : ScreenId) (kind : Byte) :
    (s.receiveFrame n kind tag payload).alignGroup a = (s.alignGroup a).receiveFrame n kind tag payload :=
  receiveFrame_mapScreens s _ n kind tag payload

theorem alignWords_receiveFrame (a : ScreenId) (t : State) (kind : Byte) :
    alignWords a (s.receiveFrame n kind tag payload) (t.receiveFrame n kind tag payload) = alignWords a s t := rfl

theorem exec_groupAlign_error {e : Answer} (hears : s.hears n .line payload) (h : groupAlignParse payload s = .error e) :
    exec (.groupAlign n tag payload) s = .next (s.answered n 0x29 tag payload e.code e.index e.words) := by
  obtain ⟨hrun, hrole, hlen⟩ := hears
  rw [← groupAlignParse_receiveFrame (n := n) (tag := tag) 0x29] at h
  exact exec_unchanged (k := .groupAlign) ⟨hrun, hlen⟩ (by rw [hrole]; rfl) (takeGroupAlign_error n h)

theorem exec_groupAlign_ok {a : ScreenId} (hears : s.hears n .line payload) (h : groupAlignParse payload s = .ok a) :
    exec (.groupAlign n tag payload) s = .next
      ((s.alignGroup a).answered n 0x29 tag payload .ok 0 (alignWords a s (s.alignGroup a))) := by
  obtain ⟨hrun, hrole, hlen⟩ := hears
  rw [← groupAlignParse_receiveFrame (n := n) (tag := tag) 0x29] at h
  have htake := takeGroupAlign_ok n h
  rw [receiveFrame_alignGroup, alignWords_receiveFrame] at htake
  exact exec_changed (k := .groupAlign) ⟨hrun, hlen⟩ (by rw [hrole]; rfl) htake

end

/-! ### What an answered request leaves to be read -/

section
variable (s : State) (n : PortId) (kind tag : Byte) (payload : List Word) (code : Status) (index : Nat)
  (words : List Word)

theorem State.screen_answered (k : ScreenId) :
    (s.answered n kind tag payload code index words).screen k = s.screen k := by
  unfold State.screen
  rw [State.answered_screens]

theorem State.held_words_answered :
    ((s.answered n kind tag payload code index words).port n).held.words = words := by
  rw [State.port_answered, if_pos rfl]

end

end Sys2Proof.Machine

/-! ### The statements -/

open Sys2Proof Sys2Proof.Machine

/-- Settles O35: the role and the number of fields decide the refusals, and the staged value is the clamped one. -/
theorem stretchSetStagesClampedStretch : Obligations.StretchSetStagesClampedStretch := by
  unfold Obligations.StretchSetStagesClampedStretch
  refine ⟨fun s n tag payload hears => ⟨fun hrole => ?_, fun hrole => ?_⟩, ?_⟩
  · exact exec_role (k := .stretchSet) hears (beq_eq_false_iff_ne.mpr hrole)
  · have hpermits : permits .stretchSet (s.port n).role = true := by rw [hrole]; rfl
    have hnaming : ∀ i, oneSigned payload = .error (refuse .range i) →
        exec (.stretchSet n tag payload) s = .next (s.answered n 0x28 tag payload .range i []) := fun i h =>
      exec_unchanged (k := .stretchSet) hears hpermits (takeStretchSet_error n h)
    exact ⟨fun h => hnaming _ (oneSigned_of_nil h), fun f g rest h => hnaming _ (oneSigned_of_second h)⟩
  · rintro s n tag payload f v lFab ⟨hrun, hrole, hlen⟩ hf hlow hhigh hmid rfl
    have hv : clamp (-2048) 2048 f.signed = v := clamp_eq_of_cases (by decide) hlow hhigh hmid
    have htake := takeStretchSet_ok n (s := s.receiveFrame n 0x28 tag payload) (oneSigned_of_field hf)
    rw [hv] at htake
    exact exec_changed (k := .stretchSet) (t := s.stageStretch v) ⟨hrun, hlen⟩ (by rw [hrole]; rfl) htake

/-- Settles O36: an accepted GROUP.ALIGN is `alignGroup` screen by screen, and the parse makes the refusals. -/
theorem groupAlignPlacesTheGroup : Obligations.GroupAlignPlacesTheGroup := by
  unfold Obligations.GroupAlignPlacesTheGroup
  refine ⟨fun s n tag payload f a hears hf hfa hpresent hkind hrest => ?_, ?_, ?_⟩
  · have hparse : groupAlignParse payload s = .ok a :=
      groupAlignParse_ok (oneScreen_of_index hf hfa) ((isAnchor_iff _).mpr ⟨hpresent, hkind⟩) hrest
    refine ⟨_, exec_groupAlign_ok hears hparse, ?_, fun k => ?_, _, rfl, ?_⟩
    · rw [State.held_words_answered, State.answered_screens, ← State.alignGroup_eq]
    · rw [State.screen_answered, State.screen_alignGroup]
      refine ⟨rfl, by simp, fun h => ?_, fun h0 hk => ⟨fun g hg => ?_, fun hg => ?_⟩⟩
      · exact if_neg (by rw [State.places_iff]; tauto)
      · exact (if_pos ((s.places_iff a k).mpr ⟨h0, hk⟩)).trans (State.placed_of_containing _ hg)
      · exact (if_pos ((s.places_iff a k).mpr ⟨h0, hk⟩)).trans (State.placed_of_outside _ hg)
    · simp only [State.held_words_answered, State.screen_answered, ← s.places_eq]
      rfl
  · exact Kind.checksOneIndex_of_oneScreen (fun r h => by rw [h (by decide)]; rfl)
      fun n payload s e h => takeGroupAlign_error n (groupAlignParse_error h)
  · intro s n tag payload f a hears hf hfa hbad
    refine exec_groupAlign_error hears (groupAlignParse_state (oneScreen_of_index hf hfa) ?_)
    refine hbad.imp (mt (isAnchor_iff _).mp) fun ⟨k, hk, hparked, hfaulted⟩ hrest => ?_
    exact (hrest k hk).elim hparked hfaulted

end

section
/-! PROOFS. The two requests of Engagement Control, ENGAGE and LIFT: their checks, what they make of each screen, and
their two statements. -/

namespace Sys2Proof.Machine

/-! ### Acting on screens one after another -/

/-- A run of idempotent acts, each on one screen: every screen in the run is acted on, and no other. -/
theorem view_foldl {σ α : Type} {step : σ → ScreenId → σ} {view : σ → ScreenId → α} {act : α → α}
    (hstep : ∀ u j k, view (step u j) k = if k = j then act (view u k) else view u k)
    (hact : ∀ a, act (act a) = act a) (l : List ScreenId) (s : σ) (k : ScreenId) :
    view (l.foldl step s) k = if k ∈ l then act (view s k) else view s k := by
  induction l generalizing s with
  | nil => simp
  | cons j l ih =>
    rw [List.foldl_cons, ih, hstep]
    by_cases hj : k = j <;> by_cases hl : k ∈ l <;> simp [hj, hl, hact]

/-- What ENGAGE and LIFT read and write of a screen: the next seq, its engagement record, and whether it is planned. -/
structure Standing where
  nextSeq : Nat
  eng : Engagement
  planned : Bool

def State.standing (s : State) (k : ScreenId) : Standing :=
  { nextSeq := s.web.nextSeq, eng := (s.screen k).eng, planned := inSet s.planned k }

/-- Two states differ in engagement records and the planned set alone. -/
def PlanOnly (s t : State) : Prop :=
  t = { s with screens := t.screens, planned := t.planned }
    ∧ ∀ k, t.screen k = { s.screen k with eng := (t.screen k).eng }

theorem PlanOnly.refl (s : State) : PlanOnly s s := ⟨rfl, fun _ => rfl⟩

theorem PlanOnly.trans {s t u : State} (h1 : PlanOnly s t) (h2 : PlanOnly t u) : PlanOnly s u := by
  refine ⟨?_, fun k => ?_⟩
  · rw [h2.1, h1.1]
  · rw [h2.2 k, h1.2 k]

theorem PlanOnly.modEng (k : ScreenId) (f : Engagement → Engagement) (s : State) : PlanOnly s (s.modEng k f) := by
  obtain ⟨-, -, hscreens, -⟩ := EngOnly.modEng k f s
  exact ⟨rfl, hscreens⟩

theorem PlanOnly.withPlanned (p : ScreenSet) (s : State) : PlanOnly s (s.withPlanned p) := ⟨rfl, fun _ => rfl⟩

theorem PlanOnly.foldl {α : Type} {f : State → α → State} (h : ∀ s a, PlanOnly s (f s a)) (l : List α) (s : State) :
    PlanOnly s (l.foldl f s) := by
  induction l generalizing s with
  | nil => exact PlanOnly.refl s
  | cons a l ih => exact (h s a).trans (ih (f s a))

theorem PlanOnly.engageScreen (k : ScreenId) (s : State) : PlanOnly s (s.engageScreen k) := by
  unfold State.engageScreen
  cases s.engState k with
  | parked | ending => exact (PlanOnly.modEng k _ s).trans (PlanOnly.withPlanned _ _)
  | faulted => exact PlanOnly.withPlanned _ s
  | absent | armed | lowering | printing => exact PlanOnly.refl s

theorem PlanOnly.liftScreen (k : ScreenId) (s : State) : PlanOnly s (s.liftScreen k) :=
  (PlanOnly.modEng k _ s).trans (PlanOnly.withPlanned _ _)

/-- The tables of R56 and R57. -/
def Standing.engage (x : Standing) : Standing :=
  match x.eng.state with
  | .parked => { x with eng := x.eng.arm x.nextSeq, planned := true }
  | .ending => { x with eng := { x.eng with state := .printing, stopSeq := 0 }, planned := true }
  | .faulted => { x with planned := true }
  | .absent | .armed | .lowering | .printing => x

/-- The table of R64, and the screen leaves the planned set. -/
def Standing.lift (x : Standing) : Standing := { x with eng := x.eng.lift x.nextSeq, planned := false }

theorem Standing.engage_engage (x : Standing) : x.engage.engage = x.engage := by
  obtain ⟨n, e, p⟩ := x
  cases h : e.state <;> simp [Standing.engage, Engagement.arm, h]

theorem Standing.lift_lift (x : Standing) : x.lift.lift = x.lift := by
  obtain ⟨n, e, p⟩ := x
  cases h : e.state <;> simp [Standing.lift, Engagement.lift, h]

theorem Standing.engage_of_parked {x : Standing} (h : x.eng.state = .parked) :
    x.engage = { x with eng := x.eng.arm x.nextSeq, planned := true } := by simp [Standing.engage, h]

theorem Standing.engage_of_ending {x : Standing} (h : x.eng.state = .ending) :
    x.engage = { x with eng := { x.eng with state := .printing, stopSeq := 0 }, planned := true } := by
  simp [Standing.engage, h]

theorem Standing.engage_of_faulted {x : Standing} (h : x.eng.state = .faulted) :
    x.engage = { x with planned := true } := by simp [Standing.engage, h]

theorem Standing.engage_of_other {x : Standing}
    (h : x.eng.state = .armed ∨ x.eng.state = .lowering ∨ x.eng.state = .printing ∨ x.eng.state = .absent) :
    x.engage = x := by
  rcases h with h | h | h | h <;> simp [Standing.engage, h]

theorem Engagement.lift_of_armed {e : Engagement} {n : Nat} (h : e.state = .armed) :
    e.lift n = { e with state := .parked, window := false } := by simp [Engagement.lift, h]

theorem Engagement.lift_of_lowering {e : Engagement} {n : Nat} (h : e.state = .lowering) :
    e.lift n = { e with state := .parked } := by simp [Engagement.lift, h]

theorem Engagement.lift_of_printing {e : Engagement} {n : Nat} (h : e.state = .printing) :
    e.lift n = { e with state := .ending, stopSeq := n } := by simp [Engagement.lift, h]

theorem Engagement.lift_of_other {e : Engagement} {n : Nat}
    (h : e.state = .parked ∨ e.state = .ending ∨ e.state = .faulted ∨ e.state = .absent) : e.lift n = e := by
  rcases h with h | h | h | h <;> simp [Engagement.lift, h]

theorem State.standing_engageScreen (u : State) (j k : ScreenId) :
    (u.engageScreen j).standing k = if k = j then (u.standing k).engage else u.standing k := by
  unfold State.standing Standing.engage
  simp only [State.engageScreen_screen, State.engageScreen_planned, State.engageScreen_web]
  by_cases hj : k = j
  · subst hj
    cases h : u.engState k <;> simp [show (u.screen k).eng.state = _ from h, inSet_addTo]
  · cases h : u.engState j <;> simp [hj, inSet_addTo]

theorem State.standing_liftScreen (u : State) (j k : ScreenId) :
    (u.liftScreen j).standing k = if k = j then (u.standing k).lift else u.standing k := by
  unfold State.standing Standing.lift
  rw [State.liftScreen_screen, State.liftScreen_planned, State.liftScreen_web, inSet_dropFrom]
  by_cases hj : k = j
  · subst hj; simp
  · simp [hj]

/-! ### What a request of Engagement Control leaves -/

/-- A change of engagement records and the planned set, with HOLD evaluated after it, changes HOLD alone besides. -/
theorem PlanOnly.evalHold_eq {s u : State} (h : PlanOnly s u) :
    u.evalHold = { s with
      screens := u.evalHold.screens, planned := u.evalHold.planned,
      ring := { s.ring with hold := u.evalHold.ring.hold } } := by
  rw [h.1]; rfl

/-- An answered request leaves HOLD as it was evaluated. -/
theorem State.holdFollows_answered (u : State) (n : PortId) (kind tag : Byte) (payload : List Word) (code : Status)
    (index : Nat) (words : List Word) : (u.evalHold.answered n kind tag payload code index words).HoldFollows :=
  State.holdFollows_congr rfl rfl rfl rfl (fun _ => rfl) u.evalHold_follow

/-! ### The groups of a request -/

section
variable {s : State} {j k : ScreenId}

theorem State.unifiedRelative_iff : unifiedRelative s.screens j = true ↔
    (s.screen j).kind = .relative ∧ ∃ a, anchorOf s.screens j = some a ∧ (s.screen a).ext = true := by
  unfold unifiedRelative inUnified
  cases anchorOf s.screens j <;> simp [State.screen]

theorem State.groupAligned_iff : groupAligned s.screens j = true ↔
    ∃ a, anchorOf s.screens j = some a ∧ (s.screen a).aligned = true := by
  unfold groupAligned
  cases anchorOf s.screens j <;> simp [State.screen]

theorem State.anchorPlanned_iff : s.anchorPlanned j = true ↔
    ∃ a, anchorOf s.screens j = some a ∧ inSet s.planned a = true := by
  unfold State.anchorPlanned
  cases anchorOf s.screens j <;> simp

/-- ENGAGE of screen j acts on screen k (R57). -/
def State.engages (s : State) (j k : ScreenId) : Prop :=
  k = j ∨ ((s.screen j).kind = .anchor ∧ (s.screen j).ext = true ∧ anchorOf s.screens k = some j)

/-- LIFT of screen j acts on screen k (R65). -/
def State.lifts (s : State) (j k : ScreenId) : Prop :=
  k = j ∨ ((s.screen j).present = true ∧ (s.screen j).kind = .anchor ∧ anchorOf s.screens k = some j
    ∧ inSet s.planned k = true)

theorem mem_engageTargets (hpresent : (s.screen j).present = true) :
    k ∈ engageTargets s.screens j ↔ s.engages j k := by
  have hanchor : isAnchor s.screens[j] = true ↔ (s.screen j).kind = .anchor :=
    (isAnchor_iff _).trans (and_iff_right hpresent)
  unfold engageTargets State.engages
  split
  · rename_i h
    obtain ⟨ha, he⟩ := Bool.and_eq_true_iff.mp h
    rw [List.mem_cons, mem_relativesOf, hanchor.mp ha, show (s.screen j).ext = true from he]
    tauto
  · rename_i h
    rw [Bool.and_eq_true_iff, hanchor] at h
    rw [List.mem_singleton]
    exact ⟨.inl, fun hk => hk.resolve_right fun ⟨ha, he, _⟩ => h ⟨ha, he⟩⟩

theorem mem_liftTargets : k ∈ s.liftTargets j ↔ s.lifts j k := by
  unfold State.liftTargets State.lifts
  split
  · rename_i h
    obtain ⟨hp, ha⟩ := (isAnchor_iff _).mp h
    rw [List.mem_cons, List.mem_filter, mem_relativesOf, hp, ha]
    tauto
  · rename_i h
    rw [isAnchor_iff] at h
    rw [List.mem_singleton]
    exact ⟨.inl, fun hk => hk.resolve_right fun ⟨hp, ha, _⟩ => h ⟨hp, ha⟩⟩

end

/-! ### ENGAGE and LIFT: their checks (R55, R64) -/

/-- The checks of ENGAGE on the screen it names, in order, each with the code of its refusal (R55). -/
def State.engageChecks (s : State) (j : ScreenId) : List (Prop × Status) :=
  [(s.web.lineState = .run, .state), ((s.screen j).present = true, .state),
    (¬ ((s.screen j).kind = .relative ∧ ∃ a, anchorOf s.screens j = some a ∧ (s.screen a).ext = true), .grouped),
    (s.engState j ≠ .faulted, .state),
    ((s.screen j).kind = .relative → s.engState j = .parked ∨ s.engState j = .ending →
      ∃ a, anchorOf s.screens j = some a ∧ inSet s.planned a = true, .state),
    ((∃ k, s.engages j k ∧ s.engState k = .parked) →
      ∃ a, anchorOf s.screens j = some a ∧ (s.screen a).aligned = true, .state)]

/-- A parse makes checks in order: the first that fails refuses with its code, and with none failing j is named. -/
def Checked (j : ScreenId) (parse : Except Answer ScreenId) : List (Prop × Status) → Prop
  | [] => parse = .ok j
  | c :: checks => (¬ c.1 → parse = .error (refuse c.2 0)) ∧ (c.1 → Checked j parse checks)

/-- A parse that begins with a test makes a check first. -/
theorem Checked.test {j : ScreenId} {parse : Except Answer ScreenId} {test check : Prop} [Decidable test]
    {code : Status} {checks : List (Prop × Status)} (htest : test ↔ ¬ check)
    (hrest : check → Checked j parse checks) :
    Checked j (if test then .error (refuse code 0) else parse) ((check, code) :: checks) :=
  ⟨fun h => if_pos (htest.mpr h), fun h => by rw [if_neg fun ht => htest.mp ht h]; exact hrest h⟩

theorem Checked.ok {j : ScreenId} {parse : Except Answer ScreenId} {checks : List (Prop × Status)}
    (h : Checked j parse checks) (hall : ∀ c ∈ checks, c.1) : parse = .ok j := by
  induction checks with
  | nil => exact h
  | cons c checks ih =>
    rw [List.forall_mem_cons] at hall
    exact ih (h.2 hall.1) hall.2

theorem Checked.refused {j : ScreenId} {parse : Except Answer ScreenId} {checks : List (Prop × Status)}
    {c : Prop × Status} {i : Nat} (h : Checked j parse checks) (hi : checks[i]? = some c)
    (hbefore : ∀ c ∈ checks.take i, c.1) (hc : ¬ c.1) : parse = .error (refuse c.2 0) := by
  induction checks generalizing i with
  | nil => cases hi
  | cons d checks ih =>
    cases i with
    | zero =>
      obtain rfl : d = c := Option.some.inj hi
      exact h.1 hc
    | succ i =>
      rw [List.take_succ_cons, List.forall_mem_cons] at hbefore
      exact ih (h.2 hbefore.1) hi hbefore.2

section
variable {s : State} {n : PortId} {tag : Byte} {payload : List Word} {j : ScreenId}

theorem engageParse_error {e : Answer} (h : oneScreen payload = .error e) : engageParse payload s = .error e := by
  simp [engageParse, h]

theorem liftParse_error {e : Answer} (h : oneScreen payload = .error e) : liftParse payload s = .error e := by
  simp [liftParse, h]

/-- ENGAGE of one index makes its checks in their order (R55). -/
theorem engageParse_checked (h : oneScreen payload = .ok j) : Checked j (engageParse payload s) (s.engageChecks j) := by
  unfold engageParse State.engageChecks
  rw [h]
  refine .test Iff.rfl fun _ => .test ?_ fun hpresent => .test ?_ fun _ => .test ?_ fun _ => .test ?_ fun _ =>
    .test ?_ fun _ => rfl
  · exact Bool.not_eq_true _ ▸ Iff.rfl
  · exact s.unifiedRelative_iff.trans not_not.symm
  · exact not_not.symm
  · rw [← s.anchorPlanned_iff, Classical.not_imp, Classical.not_imp, Bool.not_eq_true]
  · have hparked : (engageTargets s.screens j).any (fun k => s.engState k == .parked) = true ↔
        ∃ k, s.engages j k ∧ s.engState k = .parked := by
      simp only [List.any_eq_true, beq_iff_eq, mem_engageTargets hpresent]
    rw [hparked, ← s.groupAligned_iff, Classical.not_imp, Bool.not_eq_true]

theorem liftParse_ok (h : oneScreen payload = .ok j) (hfree : ¬ unifiedRelative s.screens j = true) :
    liftParse payload s = .ok j := by
  unfold liftParse
  rw [h]
  exact if_neg hfree

theorem liftParse_grouped (h : oneScreen payload = .ok j) (hunified : unifiedRelative s.screens j = true) :
    liftParse payload s = .error (refuse .grouped 0) := by
  unfold liftParse
  rw [h]
  exact if_pos hunified

end

/-! ### ENGAGE and LIFT: their effect (R56, R57, R64, R65) -/

section
variable (s : State) (j k : ScreenId)

theorem PlanOnly.engageAll (l : List ScreenId) : PlanOnly s (l.foldl (fun u i => u.engageScreen i) s) :=
  PlanOnly.foldl (fun u i => PlanOnly.engageScreen i u) l s

theorem PlanOnly.liftAll (l : List ScreenId) : PlanOnly s (l.foldl (fun u i => u.liftScreen i) s) :=
  PlanOnly.foldl (fun u i => PlanOnly.liftScreen i u) l s

theorem State.engage_eq : s.engage j = { s with
    screens := (s.engage j).screens, planned := (s.engage j).planned,
    ring := { s.ring with hold := (s.engage j).ring.hold } } := (PlanOnly.engageAll s _).evalHold_eq

theorem State.lift_eq : s.lift j = { s with
    screens := (s.lift j).screens, planned := (s.lift j).planned,
    ring := { s.ring with hold := (s.lift j).ring.hold } } := (PlanOnly.liftAll s _).evalHold_eq

/-- ENGAGE writes of a screen the engagement record alone. -/
theorem State.screen_engage : (s.engage j).screen k = { s.screen k with eng := ((s.engage j).screen k).eng } :=
  (PlanOnly.engageAll s _).2 k

/-- LIFT writes of a screen the engagement record alone. -/
theorem State.screen_lift : (s.lift j).screen k = { s.screen k with eng := ((s.lift j).screen k).eng } :=
  (PlanOnly.liftAll s _).2 k

variable {s j k}

theorem State.engage_named {x : Standing} (hpresent : (s.screen j).present = true) (h : s.engages j k)
    (hx : (s.standing k).engage = x) :
    ((s.engage j).screen k).eng = x.eng ∧ inSet (s.engage j).planned k = x.planned := by
  have hstanding : (s.engage j).standing k = _ :=
    view_foldl State.standing_engageScreen Standing.engage_engage (engageTargets s.screens j) s k
  rw [if_pos ((mem_engageTargets hpresent).mpr h), hx] at hstanding
  exact ⟨congrArg Standing.eng hstanding, congrArg Standing.planned hstanding⟩

theorem State.engage_unnamed (hpresent : (s.screen j).present = true) (h : ¬ s.engages j k) :
    ((s.engage j).screen k).eng = (s.screen k).eng ∧ inSet (s.engage j).planned k = inSet s.planned k := by
  have hstanding : (s.engage j).standing k = _ :=
    view_foldl State.standing_engageScreen Standing.engage_engage (engageTargets s.screens j) s k
  rw [if_neg (mt (mem_engageTargets hpresent).mp h)] at hstanding
  exact ⟨congrArg Standing.eng hstanding, congrArg Standing.planned hstanding⟩

theorem State.lift_named (h : s.lifts j k) :
    ((s.lift j).screen k).eng = (s.screen k).eng.lift s.web.nextSeq ∧ inSet (s.lift j).planned k = false := by
  have hstanding : (s.lift j).standing k = _ :=
    view_foldl State.standing_liftScreen Standing.lift_lift (s.liftTargets j) s k
  rw [if_pos (mem_liftTargets.mpr h)] at hstanding
  exact ⟨congrArg Standing.eng hstanding, congrArg Standing.planned hstanding⟩

theorem State.lift_unnamed (h : ¬ s.lifts j k) :
    ((s.lift j).screen k).eng = (s.screen k).eng ∧ inSet (s.lift j).planned k = inSet s.planned k := by
  have hstanding : (s.lift j).standing k = _ :=
    view_foldl State.standing_liftScreen Standing.lift_lift (s.liftTargets j) s k
  rw [if_neg (mt mem_liftTargets.mp h)] at hstanding
  exact ⟨congrArg Standing.eng hstanding, congrArg Standing.planned hstanding⟩

end

/-! ### ENGAGE and LIFT as commands -/

section
variable {s : State} {n : PortId} {tag : Byte} {payload : List Word} {j : ScreenId}

theorem receiveFrame_engageScreen (kind : Byte) :
    (s.receiveFrame n kind tag payload).engageScreen j = (s.engageScreen j).receiveFrame n kind tag payload := by
  unfold State.engageScreen
  rw [State.engState_receiveFrame]
  cases s.engState j <;> rfl

theorem receiveFrame_engage (kind : Byte) :
    (s.receiveFrame n kind tag payload).engage j = (s.engage j).receiveFrame n kind tag payload :=
  congrArg State.evalHold
    (List.foldl_hom (State.receiveFrame n kind tag payload) fun _ _ => receiveFrame_engageScreen kind)

theorem receiveFrame_lift (kind : Byte) :
    (s.receiveFrame n kind tag payload).lift j = (s.lift j).receiveFrame n kind tag payload :=
  congrArg State.evalHold (List.foldl_hom (State.receiveFrame n kind tag payload) fun _ _ => rfl)

theorem takeEngage_error (n : PortId) {e : Answer} (h : engageParse payload s = .error e) :
    takeEngage n payload s = (s, e) := by
  simp [takeEngage, h]

theorem takeLift_error (n : PortId) {e : Answer} (h : liftParse payload s = .error e) :
    takeLift n payload s = (s, e) := by
  simp [takeLift, h]

theorem exec_engage_error {e : Answer} (hears : s.hears n .line payload) (h : engageParse payload s = .error e) :
    exec (.engage n tag payload) s = .next (s.answered n 0x30 tag payload e.code e.index e.words) := by
  obtain ⟨hrun, hrole, hlen⟩ := hears
  have hparse : engageParse payload (s.receiveFrame n 0x30 tag payload) = .error e := h
  exact exec_unchanged (k := .engage) ⟨hrun, hlen⟩ (by rw [hrole]; rfl) (takeEngage_error n hparse)

theorem exec_lift_error {e : Answer} (hears : s.hears n .line payload) (h : liftParse payload s = .error e) :
    exec (.lift n tag payload) s = .next (s.answered n 0x31 tag payload e.code e.index e.words) := by
  obtain ⟨hrun, hrole, hlen⟩ := hears
  have hparse : liftParse payload (s.receiveFrame n 0x31 tag payload) = .error e := h
  exact exec_unchanged (k := .lift) ⟨hrun, hlen⟩ (by rw [hrole]; rfl) (takeLift_error n hparse)

theorem exec_engage_ok (hears : s.hears n .line payload) (h : engageParse payload s = .ok j) :
    exec (.engage n tag payload) s = .next
      ((s.engage j).answered n 0x30 tag payload .ok 0 (engageWords j s (s.engage j))) := by
  obtain ⟨hrun, hrole, hlen⟩ := hears
  have hparse : engageParse payload (s.receiveFrame n 0x30 tag payload) = .ok j := h
  have htake : takeEngage n payload (s.receiveFrame n 0x30 tag payload) =
      ((s.engage j).receiveFrame n 0x30 tag payload, accept (engageWords j s (s.engage j))) := by
    unfold takeEngage
    rw [hparse]
    dsimp only
    rw [receiveFrame_engage]
    rfl
  exact exec_changed (k := .engage) ⟨hrun, hlen⟩ (by rw [hrole]; rfl) htake

theorem exec_lift_ok (hears : s.hears n .line payload) (h : liftParse payload s = .ok j) :
    exec (.lift n tag payload) s = .next
      ((s.lift j).answered n 0x31 tag payload .ok 0 (liftWords j s (s.lift j))) := by
  obtain ⟨hrun, hrole, hlen⟩ := hears
  have hparse : liftParse payload (s.receiveFrame n 0x31 tag payload) = .ok j := h
  have htake : takeLift n payload (s.receiveFrame n 0x31 tag payload) =
      ((s.lift j).receiveFrame n 0x31 tag payload, accept (liftWords j s (s.lift j))) := by
    unfold takeLift
    rw [hparse]
    dsimp only
    rw [receiveFrame_lift]
    rfl
  exact exec_changed (k := .lift) ⟨hrun, hlen⟩ (by rw [hrole]; rfl) htake

end

/-! ### The reply of LIFT -/

/-- The reply of LIFT gives the screens that left the planned set by their membership before and after (R65). -/
theorem liftWords_eq (k : ScreenId) (s t : State) :
    liftWords k s t = words1 (t.engState k).toCode ++ words2 (t.screen k).eng.stopSeq
      ++ words2 (screensWhere fun j => s.engState j != t.engState j).toNat
      ++ words2 (screensWhere fun j => inSet s.planned j && !inSet t.planned j).toNat ++ words2 t.planned.toNat := by
  have hleft : screensWhere (fun j => inSet s.planned j && !inSet t.planned j) = s.planned &&& ~~~t.planned :=
    screensWhere_eq fun j => by simp [inSet]
  rw [hleft]
  rfl

end Sys2Proof.Machine

/-! ### The statements -/

open Sys2Proof Sys2Proof.Machine

/-- Settles O37: the parse makes the checks of R55 in order, and each screen acted on goes by the tables of R56 and
R57. -/
theorem engageArmsByTheTables : Obligations.EngageArmsByTheTables := by
  unfold Obligations.EngageArmsByTheTables
  refine ⟨?_, ?_, ?_⟩
  · intro s n tag payload f j named hears hf hj hrun hpresent hfree hfaulted hanchor hnamed haligned
    obtain rfl : named = s.engages j := funext fun k => propext (hnamed k)
    have hchecks : ∀ c ∈ s.engageChecks j, c.1 := by
      simp only [State.engageChecks, List.forall_mem_cons]
      exact ⟨hrun, hpresent, hfree, hfaulted, hanchor, haligned, by simp⟩
    have hparse := (engageParse_checked (oneScreen_of_index hf hj)).ok hchecks
    refine ⟨_, exec_engage_ok hears hparse, ?_, State.holdFollows_answered _ _ _ _ _ _ _ _, fun k => ?_⟩
    · rw [State.screen_answered, State.answered_screens, State.answered_planned, State.answered_ring, ← State.engage_eq]
      rfl
    · rw [State.screen_answered, State.answered_planned]
      refine ⟨s.screen_engage j k, State.engage_unnamed hpresent, fun hk h => ?_, fun hk h => ?_, fun hk h => ?_,
        fun hk h => ?_⟩
      · exact State.engage_named hpresent hk (Standing.engage_of_parked h)
      · exact State.engage_named hpresent hk (Standing.engage_of_ending h)
      · exact State.engage_named hpresent hk (Standing.engage_of_faulted h)
      · exact State.engage_named hpresent hk (Standing.engage_of_other h)
  · exact Kind.checksOneIndex_of_oneScreen (fun r h => by rw [h (by decide)]; rfl)
      fun n payload s e h => takeEngage_error n (engageParse_error h)
  · rintro s n tag payload f j named checks hears hf hj hnamed rfl i check hi hbefore hfail
    obtain rfl : named = s.engages j := funext fun k => propext (hnamed k)
    exact exec_engage_error hears ((engageParse_checked (oneScreen_of_index hf hj)).refused hi hbefore hfail)

/-- Settles O38: each screen acted on goes by the table of R64 and leaves the planned set. -/
theorem liftLowersByTheTable : Obligations.LiftLowersByTheTable := by
  unfold Obligations.LiftLowersByTheTable
  refine ⟨?_, ?_, ?_⟩
  · intro s n tag payload f j named hears hf hj hfree hnamed
    obtain rfl : named = s.lifts j := funext fun k => propext (hnamed k)
    have hparse := liftParse_ok (oneScreen_of_index hf hj) (mt s.unifiedRelative_iff.mp hfree)
    have hexec := exec_lift_ok (tag := tag) hears hparse
    rw [liftWords_eq] at hexec
    refine ⟨_, hexec, ?_, State.holdFollows_answered _ _ _ _ _ _ _ _, fun k => ?_⟩
    · rw [State.screen_answered, State.answered_screens, State.answered_planned, State.answered_ring, ← State.lift_eq]
      rfl
    · rw [State.screen_answered, State.answered_planned]
      refine ⟨s.screen_lift j k, State.lift_unnamed, fun hk => (State.lift_named hk).2, fun hk h => ?_,
        fun hk h => ?_, fun hk h => ?_, fun hk h => ?_⟩ <;> refine (State.lift_named hk).1.trans ?_
      · exact Engagement.lift_of_armed h
      · exact Engagement.lift_of_lowering h
      · exact Engagement.lift_of_printing h
      · exact Engagement.lift_of_other h
  · exact Kind.checksOneIndex_of_oneScreen (fun r h => by rw [h (by decide)]; rfl)
      fun n payload s e h => takeLift_error n (liftParse_error h)
  · intro s n tag payload f j a hears hf hj hkind hanchor hext
    exact exec_lift_error hears
      (liftParse_grouped (oneScreen_of_index hf hj) (s.unifiedRelative_iff.mpr ⟨hkind, a, hanchor, hext⟩))

end

section
/-! PROOFS. RUN.ABORT: the reports it offers and the kinds it latches, what it makes of the queue, the roll table and
the screens, and its statement. -/

namespace Sys2Proof.Machine

/-! ### Offers to the exit report queue (R155, R156, R158) -/

/-- Some of the offered reports find no room. -/
def overflows (reports offered : List Report) : Prop := max 32 reports.length < reports.length + offered.length

/-- Between two states these reports are offered, and no kind is latched but ROLL_CLOSED, with a roll report, and
REPORT_LOST, where one of them finds no room. -/
structure Offers (offered : List Report) (s t : State) : Prop where
  webOnly : WebOnly s t
  reports : t.reports = offeredTo s.reports offered
  latched : ∀ m e, hasKind (t.port m).latched e ↔ hasKind (s.port m).latched e ∨ ((s.port m).role.sees e
    ∧ ((e = .rollClosed ∧ ∃ r ∈ offered, r.isRoll) ∨ (e = .reportLost ∧ overflows s.reports offered)))

theorem offeredTo_append (reports a b : List Report) :
    offeredTo (offeredTo reports a) b = offeredTo reports (a ++ b) := by
  unfold offeredTo
  rcases Nat.le_total (reports ++ a).length (max 32 reports.length) with h | h
  · have hmax : max 32 (reports ++ a).length = max 32 reports.length := by
      rw [List.length_append] at h ⊢
      omega
    rw [List.take_of_length_le h, hmax, List.append_assoc]
  · have hlen : ((reports ++ a).take (max 32 reports.length)).length = max 32 reports.length := List.length_take_of_le h
    rw [hlen, Nat.max_eq_right (Nat.le_max_left _ _), List.take_left' hlen, ← List.append_assoc,
      List.take_append_of_le_length h]

theorem overflows_append (reports a b : List Report) :
    overflows reports (a ++ b) ↔ overflows reports a ∨ overflows (offeredTo reports a) b := by
  simp only [overflows, offeredTo, List.length_take, List.length_append]
  omega

theorem Offers.refl (s : State) : Offers [] s s where
  webOnly := WebOnly.refl s
  reports := (offeredTo_nil _).symm
  latched := by simp [overflows]

theorem Offers.trans {a b : List Report} {s t u : State} (h1 : Offers a s t) (h2 : Offers b t u) :
    Offers (a ++ b) s u where
  webOnly := h1.webOnly.trans h2.webOnly
  reports := by rw [h2.reports, h1.reports, offeredTo_append]
  latched m e := by
    obtain ⟨hrole, -⟩ := h1.webOnly.2.keeps m
    rw [h2.latched, h1.latched, hrole, overflows_append, h1.reports]
    simp only [List.mem_append, or_and_right, exists_or]
    rw [or_assoc, ← and_or_left, or_or_or_comm, ← and_or_left, ← and_or_left]

/-- A run of offers. -/
theorem Offers.foldl {α : Type} {f : State → α → State} {report : α → Report} (h : ∀ s a, Offers [report a] s (f s a))
    (l : List α) (s : State) : Offers (l.map report) s (l.foldl f s) := by
  induction l generalizing s with
  | nil => exact Offers.refl s
  | cons a l ih => exact (h s a).trans (ih (f s a))

theorem Offers.withWeb {l : List Report} {s t : State} (w : WebMap) (h : Offers l (s.withWeb w) t) : Offers l s t where
  webOnly := (WebOnly.withWeb s w).trans h.webOnly
  reports := h.reports
  latched := h.latched

/-- An offer latches REPORT_LOST alone, and only where the report finds no room. -/
theorem State.hasKind_offer (r : Report) (s : State) (m : PortId) (e : EventKind) :
    hasKind ((s.offer r).port m).latched e ↔
      hasKind (s.port m).latched e ∨ ((s.port m).role.sees e ∧ e = .reportLost ∧ overflows s.reports [r]) := by
  have hover : overflows s.reports [r] ↔ 32 ≤ s.reports.length := by
    simp only [overflows, List.length_singleton]; omega
  rw [hover]
  rcases State.offer_cases r s with ⟨h, heq⟩ | ⟨h, heq⟩ <;> rw [heq]
  · simp [Nat.not_le.mpr h]
  · rw [State.hasKind_latch]; tauto

theorem State.offer_reports_eq (r : Report) (s : State) : (s.offer r).reports = offeredTo s.reports [r] := by
  unfold offeredTo
  rcases State.offer_cases r s with ⟨h, heq⟩ | ⟨h, heq⟩ <;> rw [heq]
  · rw [State.withReports_reports, List.take_of_length_le (by rw [List.length_append, List.length_singleton]; omega)]
  · rw [State.latch_reports, Nat.max_eq_right h, List.take_left]

theorem Offers.offer_segment (x : SegmentReport) (s : State) : Offers [.segment x] s (s.offer (.segment x)) where
  webOnly := WebOnly.offer _ s
  reports := State.offer_reports_eq _ s
  latched m e := by rw [State.hasKind_offer]; simp [Report.isRoll]

theorem Offers.offer_roll (x : RollReport) (s : State) :
    Offers [.roll x] s ((s.offer (.roll x)).latch .rollClosed) where
  webOnly := (WebOnly.offer _ s).trans (WebOnly.latch _ _)
  reports := (State.latch_reports _ _).trans (State.offer_reports_eq _ s)
  latched m e := by
    obtain ⟨hrole, -⟩ := (WebOnly.offer (.roll x) s).2.keeps m
    rw [State.hasKind_latch, State.hasKind_offer, hrole]
    simp only [List.mem_singleton, exists_eq_left, Report.isRoll]
    tauto

/-! ### LOST records (R93, step 1) -/

/-- What the LOST leaving of a record makes of a roll. -/
def Roll.loses (r : Roll) (g : Segment) : Roll := if r.id = g.roll then r.leave .lost g.length else r

/-- A roll with all of these records LOST. -/
def Roll.without (r : Roll) (lost : List Segment) : Roll :=
  { r with
    left := r.left - lost.length
    tally := { r.tally with lost := r.tally.lost + lost.length }
    totalLength := if lost = [] then r.totalLength
      else min 281474976710655 (r.totalLength + (lost.map fun g => g.length.toNat).sum) }

theorem Roll.leave_without (r : Roll) (g : Segment) (lost : List Segment) :
    (r.leave .lost g.length).without lost = r.without (g :: lost) := by
  have htotal : (if lost = [] then min 281474976710655 (r.totalLength + g.length.toNat)
      else min 281474976710655 (min 281474976710655 (r.totalLength + g.length.toNat)
        + (lost.map fun g => g.length.toNat).sum))
      = min 281474976710655 (r.totalLength + (g.length.toNat + (lost.map fun g => g.length.toNat).sum)) := by
    split
    · rename_i h; rw [h]; rfl
    · omega
  simp only [Roll.without, Roll.leave, Tally.add, List.length_cons, List.map_cons, List.sum_cons, htotal,
    reduceCtorEq, if_false]
  rw [Nat.sub_sub, Nat.add_assoc, Nat.add_comm 1]

/-- A run of LOST leavings takes from a roll the records that belong to it. -/
theorem Roll.foldl_loses (q : List Segment) (r : Roll) :
    q.foldl Roll.loses r = r.without (q.filter fun g => g.roll == r.id) := by
  induction q generalizing r with
  | nil => rfl
  | cons g q ih =>
    rw [List.foldl_cons, ih, Roll.loses]
    by_cases h : r.id = g.roll
    · rw [if_pos h, List.filter_cons_of_pos (by simp [h]), ← Roll.leave_without]
      rfl
    · rw [if_neg h, List.filter_cons_of_neg (by simp [Ne.symm h])]

/-- One record leaves LOST. -/
def State.abortSegment (s : State) (g : Segment) : State := (s.withQueue (s.web.queue.drop 1)).gradeRecord .aborted g

/-- The report of a LOST record. -/
def lostReport (g : Segment) : Report := .segment (segmentReport .aborted [.lost] g)

theorem State.abortSegment_web (s : State) (g : Segment) : (s.abortSegment g).web =
    { s.web with queue := s.web.queue.drop 1, rolls := s.web.rolls.map fun r => r.loses g } :=
  State.gradeRecord_web .aborted g _

theorem Offers.abortSegment (s : State) (g : Segment) : Offers [lostReport g] s (s.abortSegment g) :=
  .withWeb _ (.withWeb _ (Offers.offer_segment (segmentReport .aborted [.lost] g) _))

theorem State.foldl_abortSegment_web (q : List Segment) (s : State) : (q.foldl State.abortSegment s).web =
    { s.web with queue := s.web.queue.drop q.length, rolls := s.web.rolls.map fun r => q.foldl Roll.loses r } := by
  induction q generalizing s with
  | nil => simp
  | cons g q ih => simp [ih, State.abortSegment_web]

/-! ### Closing every roll (R93, step 2) -/

theorem Offers.closeRoll (reason : CloseReason) (s : State) (r : Roll) :
    Offers [.roll (rollReport reason r)] s (s.closeRoll reason r) :=
  .withWeb _ (Offers.offer_roll (rollReport reason r) _)

theorem State.foldl_closeRoll_web (reason : CloseReason) (l : List Roll) (s : State) :
    (l.foldl (fun u r => u.closeRoll reason r) s).web =
      { s.web with rolls := s.web.rolls.filter fun x => l.all fun r => x.id != r.id } := by
  induction l generalizing s with
  | nil => simp
  | cons r l ih => simp [ih, State.closeRoll_web, List.filter_filter, Bool.and_comm]

theorem State.closeAllRolls_web (reason : CloseReason) (s : State) :
    (s.closeAllRolls reason).web = { s.web with rolls := [] } := by
  refine (State.foldl_closeRoll_web reason s.web.rolls s).trans ?_
  rw [List.filter_eq_nil_iff.mpr]
  intro x hx hall
  simpa using List.all_eq_true.mp hall x hx

theorem Offers.closeAllRolls (reason : CloseReason) (s : State) :
    Offers (s.web.rolls.map fun r => .roll (rollReport reason r)) s (s.closeAllRolls reason) :=
  Offers.foldl (fun s r => Offers.closeRoll reason s r) s.web.rolls s

/-! ### HOLD after the lines and after a reply -/

theorem State.evalLines_holdFollows {s : State} (h : s.HoldFollows) : s.evalLines.HoldFollows :=
  State.holdFollows_congr (by rw [State.evalLines_ring]) (by rw [State.evalLines_ring]) (by rw [State.evalLines_line])
    (by rw [State.evalLines_planned]) (fun k => by unfold State.engState; rw [State.screen_evalLines]) h

theorem State.holdReply_holdFollows {s : State} {n : PortId} {kind tag : Byte} {a : Answer} (h : s.HoldFollows) :
    (s.holdReply n kind tag a).HoldFollows := State.holdFollows_congr rfl rfl rfl rfl (fun _ => rfl) h

/-! ### RUN.ABORT: its effect (R68, R93) -/

/-- Where RUN.ABORT has emptied the queue and the roll table (R93, steps 1 and 2). -/
def State.emptied (s : State) : State := s.abortSegments.closeAllRolls .abort

/-- The reports that RUN.ABORT offers: the LOST records, and then the rolls that have lost them (R93). -/
def State.abortReports (s : State) : List Report :=
  s.web.queue.map lostReport
    ++ s.web.rolls.map fun r => .roll (rollReport .abort (r.without (s.web.queue.filter fun g => g.roll == r.id)))

section
variable (s : State)

theorem State.abortSegments_web : s.abortSegments.web =
    { s.web with queue := [], rolls := s.web.rolls.map fun r => s.web.queue.foldl Roll.loses r } := by
  refine (State.foldl_abortSegment_web s.web.queue s).trans ?_
  rw [List.drop_length]

theorem State.emptied_web : s.emptied.web = { s.web with queue := [], rolls := [] } := by
  unfold State.emptied
  rw [State.closeAllRolls_web, State.abortSegments_web]

theorem Offers.emptied : Offers s.abortReports s s.emptied := by
  have hclose := Offers.closeAllRolls .abort s.abortSegments
  rw [State.abortSegments_web, List.map_map] at hclose
  simp only [Function.comp_def, Roll.foldl_loses] at hclose
  exact (Offers.foldl Offers.abortSegment s.web.queue s).trans hclose

theorem State.abortScreens_eq : s.abortScreens = { s with screens := s.abortScreens.screens, planned := 0 } := by
  unfold State.abortScreens State.mapScreens State.withScreens State.withPlanned
  rfl

theorem State.emptied_abortScreens_eq : s.emptied.abortScreens = { s with
    screens := s.emptied.abortScreens.screens, planned := 0, web := { s.web with queue := [], rolls := [] },
    reports := s.emptied.abortScreens.reports, ports := s.emptied.abortScreens.ports } := by
  have hemptied := (Offers.emptied s).webOnly.1
  rw [State.emptied_web] at hemptied
  rw [State.abortScreens_eq]
  generalize s.emptied.abortScreens.screens = screens, s.emptied = t at *
  rw [hemptied]

/-- After the screens are put down RUN.ABORT enters SETUP and evaluates the outputs. -/
theorem State.runAbort_unfold : s.runAbort =
    (s.emptied.abortScreens.withWeb
      { s.web with lineState := .setup, queue := [], rolls := [] }).evalHold.evalLines := by
  have hweb : s.emptied.abortScreens.web = { s.web with queue := [], rolls := [] } :=
    congrArg State.web s.emptied_abortScreens_eq
  unfold State.runAbort
  dsimp only
  rw [← State.emptied, hweb]

theorem State.runAbort_eq : s.runAbort = { s with
    screens := s.runAbort.screens, planned := 0, ring := { s.ring with hold := s.runAbort.ring.hold },
    web := { s.web with lineState := .setup, queue := [], rolls := [] }, reports := s.runAbort.reports,
    ports := s.runAbort.ports } := by
  have hscreens := s.emptied_abortScreens_eq
  rw [State.runAbort_unfold]
  generalize s.emptied.abortScreens = t at *
  rw [hscreens]
  unfold State.evalLines State.mapPorts
  rfl

theorem State.runAbort_reports : s.runAbort.reports = offeredTo s.reports s.abortReports := by
  rw [← (Offers.emptied s).reports, State.runAbort_unfold]
  simp [State.abortScreens]

theorem State.port_runAbort (m : PortId) :
    s.runAbort.port m = { s.emptied.port m with line := (s.runAbort.port m).line } := by
  rw [State.runAbort_unfold, State.port_evalLines, State.port_evalHold, State.port_withWeb, State.abortScreens,
    State.port_withPlanned, State.port_mapScreens]

theorem State.screen_runAbort (k : ScreenId) :
    s.runAbort.screen k = { s.screen k with eng := (s.screen k).eng.abort } := by
  rw [State.runAbort_unfold, State.screen_evalLines, State.screen_evalHold, State.screen_withWeb, State.abortScreens,
    State.screen_withPlanned, State.screen_mapScreens, (Offers.emptied s).webOnly.screen]

theorem State.runAbort_holdFollows : s.runAbort.HoldFollows := by
  rw [State.runAbort_unfold]
  exact State.evalLines_holdFollows (State.evalHold_follow _)

/-- RUN.ABORT writes of a port the latched set and the line alone. -/
theorem State.runAbort_keeps (m : PortId) : (s.runAbort.port m).role = (s.port m).role
    ∧ (s.runAbort.port m).enabled = (s.port m).enabled ∧ (s.runAbort.port m).sameSerial (s.port m) := by
  obtain ⟨hrole, henabled, -, hserial⟩ := (Offers.emptied s).webOnly.2.keeps m
  rw [s.port_runAbort]
  exact ⟨hrole, henabled, hserial⟩

theorem State.abortReports_length : s.abortReports.length = s.web.queue.length + s.web.rolls.length := by
  simp [State.abortReports]

theorem State.abortReports_isRoll : (∃ r ∈ s.abortReports, r.isRoll) ↔ s.web.rolls ≠ [] := by
  unfold State.abortReports
  constructor
  · rintro ⟨report, hmem, hroll⟩
    rcases List.mem_append.mp hmem with hlost | hclosed
    · obtain ⟨g, -, rfl⟩ := List.mem_map.mp hlost
      exact hroll.elim
    · obtain ⟨r, hr, -⟩ := List.mem_map.mp hclosed
      exact List.ne_nil_of_mem hr
  · intro h
    obtain ⟨r, hr⟩ := List.exists_mem_of_ne_nil _ h
    exact ⟨_, List.mem_append_right _ (List.mem_map_of_mem hr), trivial⟩

theorem State.runAbort_latched (m : PortId) (e : EventKind) : hasKind (s.runAbort.port m).latched e ↔
    hasKind (s.port m).latched e ∨ ((s.port m).role.sees e ∧ ((e = .rollClosed ∧ s.web.rolls ≠ [])
      ∨ (e = .reportLost ∧ s.reports.length < s.reports.length + s.web.queue.length + s.web.rolls.length
          ∧ 32 < s.reports.length + s.web.queue.length + s.web.rolls.length))) := by
  have hover : overflows s.reports s.abortReports ↔
      s.reports.length < s.reports.length + s.web.queue.length + s.web.rolls.length
        ∧ 32 < s.reports.length + s.web.queue.length + s.web.rolls.length := by
    rw [overflows, s.abortReports_length]
    omega
  rw [s.port_runAbort, (Offers.emptied s).latched, s.abortReports_isRoll, hover]

end

theorem Tally.sum_lost (t : Tally) (n : Nat) : ({ t with lost := t.lost + n } : Tally).sum = t.sum + n := by
  simp [Tally.sum, Tally.counts]
  omega

theorem rollReport_without (reason : CloseReason) (r : Roll) (lost : List Segment) :
    rollReport reason (r.without lost) =
      { id := r.id, reason := reason, seamAt := r.seamAt, firstSeq := r.firstSeq, lastSeq := r.lastSeq,
        segments := r.tally.sum + lost.length
        tally := { r.tally with lost := r.tally.lost + lost.length }
        totalLength := if lost = [] then r.totalLength
          else min 281474976710655 (r.totalLength + (lost.map fun g => g.length.toNat).sum) } := by
  rw [← Tally.sum_lost]
  rfl

theorem Engagement.abort_of_active {e : Engagement}
    (h : e.state = .armed ∨ e.state = .lowering ∨ e.state = .printing ∨ e.state = .ending) :
    e.abort = { e with state := .parked, window := false, startSeq := 0, stopSeq := 0 } := by
  rcases h with h | h | h | h <;> simp [Engagement.abort, h]

theorem Engagement.abort_of_inactive {e : Engagement}
    (h : e.state = .absent ∨ e.state = .parked ∨ e.state = .faulted) : e.abort = e := by
  rcases h with h | h | h <;> simp [Engagement.abort, h]

/-! ### RUN.ABORT as a command -/

section
variable {s : State} {n : PortId} {tag : Byte} {payload : List Word}

theorem noFields_of_nil (h : fields payload = []) : noFields payload = none := by
  simp [noFields, h]

theorem noFields_of_field {f : Field} {rest : List Field} (h : fields payload = f :: rest) :
    noFields payload = some (naming f) := by
  simp [noFields, h]

theorem takeRunAbort_range {a : Answer} (h : noFields payload = some a) : takeRunAbort n payload s = (s, a) := by
  simp [takeRunAbort, h]

theorem takeRunAbort_setup (h : noFields payload = none) (hsetup : s.web.lineState = .setup) :
    takeRunAbort n payload s = (s, refuse .state 0) := by
  simp [takeRunAbort, h, hsetup]

theorem takeRunAbort_ok (h : noFields payload = none) (hline : s.web.lineState ≠ .setup) :
    takeRunAbort n payload s = (s.runAbort, accept (words1 s.web.queue.length ++ words1 s.web.rolls.length)) := by
  simp [takeRunAbort, h, hline]

theorem exec_runAbort_refused {a : Answer} (hears : s.hears n .line payload)
    (h : takeRunAbort n payload (s.receiveFrame n 0x42 tag payload) = (s.receiveFrame n 0x42 tag payload, a)) :
    exec (.runAbort n tag payload) s = .next (s.answered n 0x42 tag payload a.code a.index a.words) := by
  obtain ⟨hrun, hrole, hlen⟩ := hears
  exact exec_unchanged (k := .runAbort) ⟨hrun, hlen⟩ (by rw [hrole]; rfl) h

theorem exec_runAbort_ok (hears : s.hears n .line payload) (h : fields payload = [])
    (hline : s.web.lineState ≠ .setup) :
    exec (.runAbort n tag payload) s = .next ((s.receiveFrame n 0x42 tag payload).runAbort.holdReply n 0x42 tag
      (accept (words1 s.web.queue.length ++ words1 s.web.rolls.length))) := by
  obtain ⟨hrun, hrole, hlen⟩ := hears
  refine (exec_command .runAbort n tag payload s).trans (congrArg Host.Outcome.next ?_)
  rw [requestFrame_taken ⟨hrun, hlen⟩ (by rw [hrole]; rfl)]
  have htake := takeRunAbort_ok (n := n) (s := s.receiveFrame n 0x42 tag payload) (noFields_of_nil h) hline
  exact congrArg (fun x : State × Answer => x.1.holdReply n 0x42 tag x.2) htake

end

end Sys2Proof.Machine

/-! ### The statement -/

open Sys2Proof Sys2Proof.Machine

/-- Settles O43: the queue and the roll table leave by offers to the exit report queue, one after another; the screens,
the outputs and the reply follow. -/
theorem runAbortEmptiesTheLine : Obligations.RunAbortEmptiesTheLine := by
  unfold Obligations.RunAbortEmptiesTheLine
  refine ⟨?_, ?_⟩
  · intro s n tag payload hears hf hline
    have hkeeps := (s.receiveFrame n 0x42 tag payload).runAbort_keeps
    refine ⟨_, exec_runAbort_ok hears hf hline, ?_, ?_, ?_, fun m => ⟨fun hm => ?_, ?_⟩, ?_, fun m e => ?_, fun k => ?_⟩
    · have hframe := (s.receiveFrame n 0x42 tag payload).runAbort_eq
      generalize (s.receiveFrame n 0x42 tag payload).runAbort = t at *
      rw [hframe]
      unfold State.holdReply State.modPort
      rfl
    · exact State.holdReply_holdFollows (State.runAbort_holdFollows _)
    · rw [State.port_holdReply, if_pos rfl]
      rfl
    · obtain ⟨-, -, hserial⟩ := hkeeps m
      rw [State.port_receiveFrame, if_neg hm] at hserial
      rwa [State.port_holdReply, if_neg hm]
    · obtain ⟨-, henabled, -⟩ := hkeeps m
      rw [State.enabled_holdReply, henabled, State.enabled_receiveFrame]
    · rintro lost closed hlost rfl
      obtain rfl : lost = fun r => s.web.queue.filter fun g => g.roll == r.id := funext hlost
      rw [State.holdReply_reports, State.runAbort_reports, List.append_assoc, List.map_map]
      refine congrArg (offeredTo s.reports) (congrArg (List.append _) (List.map_congr_left fun r _ => ?_))
      exact congrArg Report.roll (rollReport_without .abort r _)
    · rw [State.latched_holdReply, State.runAbort_latched, State.latched_receiveFrame, State.role_receiveFrame]
      rfl
    · rw [State.screen_holdReply, State.screen_runAbort]
      exact ⟨rfl, Engagement.abort_of_inactive, Engagement.abort_of_active⟩
  · intro s n tag payload hears
    have hrange : ∀ f rest, fields payload = f :: rest →
        exec (.runAbort n tag payload) s = .next (s.answered n 0x42 tag payload .range f.index []) := fun f rest h =>
      exec_runAbort_refused hears (takeRunAbort_range (noFields_of_field h))
    exact ⟨fun f rest h => ⟨fun _ => hrange f rest h, fun _ => .inl (hrange f rest h)⟩,
      fun h hsetup => exec_runAbort_refused hears (takeRunAbort_setup (noFields_of_nil h) hsetup)⟩

end

section
/-! PROOFS. HOLD stands as R84 gives it after every step: a command that changes a term of its condition evaluates it,
and every other command leaves the terms and the output as they are. -/

namespace Sys2Proof.Machine

/-! ### Changes that leave HOLD and its terms -/

section
variable {s t : State}

theorem WebOnly.holdFollows (hweb : WebOnly s t) (h : s.HoldFollows) : t.HoldFollows := by
  rw [hweb.1]
  exact h

theorem State.withPorts_holdFollows {v : Vector Port 4} (h : s.HoldFollows) : (s.withPorts v).HoldFollows := h

/-- Of the screens HOLD reads the engagement records alone. -/
theorem State.withScreens_holdFollows (ht : t = s.withScreens t.screens)
    (heng : ∀ k, (t.screen k).eng = (s.screen k).eng) (h : s.HoldFollows) : t.HoldFollows :=
  State.holdFollows_congr (by rw [ht]; rfl) (by rw [ht]; rfl) (by rw [ht]; rfl) (by rw [ht]; rfl)
    (fun k => congrArg Engagement.state (heng k)) h

theorem State.modScreen_holdFollows {k : ScreenId} {f : Screen → Screen} (hf : (f (s.screen k)).eng = (s.screen k).eng)
    (h : s.HoldFollows) : (s.modScreen k f).HoldFollows := by
  refine State.withScreens_holdFollows rfl (fun j => ?_) h
  rw [State.screen_modScreen]
  split
  · rename_i hj; rw [hf, hj]
  · rfl

end

/-! ### What the requests do -/

section
variable {s : State}

theorem State.alignGroup_holdFollows (a : ScreenId) (h : s.HoldFollows) : (s.alignGroup a).HoldFollows :=
  State.withScreens_holdFollows rfl (fun k => by rw [State.screen_alignGroup]) h

theorem State.report_holdFollows (seq : Nat) (k : ScreenId) (e : Int) (h : s.HoldFollows) :
    (s.report seq k e).HoldFollows :=
  State.evalLines_holdFollows ((WebOnly.latchIf _ _ _).holdFollows
    (State.modScreen_holdFollows rfl ((WebOnly.withQueue s _).holdFollows h)))

/-- Each record applied evaluates HOLD (R26, R84). -/
theorem putRecords_holdFollows (payload : List Word) (n : Nat) (j : ScreenId) (m : Nat) (fs : List Field)
    (h : s.HoldFollows) : (putRecords payload n j m fs s).1.HoldFollows := by
  induction n generalizing j m fs s with
  | zero => exact h
  | succ n ih =>
    unfold putRecords
    split
    · exact h
    · split
      · exact h
      · split
        · exact h
        · exact ih _ _ _ (State.evalLines_holdFollows (State.evalHold_follow _))

theorem tuneRecords_holdFollows (payload : List Word) (n : Nat) (j : ScreenId) (m : Nat) (fs : List Field)
    (h : s.HoldFollows) : (tuneRecords payload n j m fs s).1.HoldFollows := by
  induction n generalizing j m fs s with
  | zero => exact h
  | succ n ih =>
    unfold tuneRecords
    split
    · exact h
    · split
      · exact h
      · exact ih _ _ _ (State.modScreen_holdFollows rfl h)

/-- No block leaves HOLD standing against its condition when it takes a request: a refusal changes nothing, and an
accepted request evaluates HOLD or touches no term of it. -/
theorem taker_holdFollows (k : Kind) (n : PortId) (payload : List Word) (h : s.HoldFollows) :
    (taker k n payload s).1.HoldFollows := by
  cases k with
  | segmentGet | webWhere | zoneContents | rollGet => exact h
  | stretchSet | zonePut | curePut | statusGet =>
    dsimp only [taker, takeStretchSet, takeZonePut, takeCurePut, takeStatusGet]
    split <;> exact h
  | screenGet =>
    dsimp only [taker, takeScreenGet, State.groupWords]
    split
    · exact h
    · split <;> exact h
  | runBegin =>
    dsimp only [taker, takeRunBegin]
    split
    · exact h
    · split <;> exact h
  | linePut | engage | lift | screenClear =>
    dsimp only [taker, takeLinePut, takeEngage, takeLift, takeScreenClear]
    split
    · exact h
    · exact State.evalHold_follow _
  | runDrain | runAbort =>
    dsimp only [taker, takeRunDrain, takeRunAbort]
    split
    · exact h
    · split
      · exact h
      · exact State.evalLines_holdFollows (State.evalHold_follow _)
  | faultTake | reportTake =>
    dsimp only [taker, takeFaultTake, takeReportTake]
    split
    · exact h
    · split
      · exact h
      · exact State.evalLines_holdFollows h
  | attnEnable | attnTake =>
    dsimp only [taker, takeAttnEnable, takeAttnTake]
    split
    · exact h
    · exact State.evalLines_holdFollows (State.withPorts_holdFollows h)
  | zoneSample =>
    dsimp only [taker, takeZoneSample]
    split
    · exact h
    · exact State.evalLines_holdFollows ((WebOnly.latchIf _ _ _).holdFollows h)
  | groupAlign =>
    dsimp only [taker, takeGroupAlign]
    split
    · exact h
    · exact State.alignGroup_holdFollows _ h
  | regReport =>
    dsimp only [taker, takeRegReport]
    split
    · exact h
    · split
      · exact h
      · exact State.report_holdFollows _ _ _ h
  | screenPut =>
    dsimp only [taker, takeScreenPut]
    split
    · exact h
    · exact h
    · exact putRecords_holdFollows payload _ _ _ _ h
  | screenTune =>
    dsimp only [taker, takeScreenTune]
    split
    · exact h
    · exact h
    · exact tuneRecords_holdFollows payload _ _ _ _ h

end

/-! ### Frames at the ports -/

section
variable {s : State} {n : PortId} {kind tag : Byte} {payload : List Word}

theorem State.receiveFrame_holdFollows (h : s.HoldFollows) : (s.receiveFrame n kind tag payload).HoldFollows :=
  State.withPorts_holdFollows h

theorem answerRequest_holdFollows (k : Kind) (h : s.HoldFollows) :
    (answerRequest k (taker k) n tag payload s).HoldFollows := by
  unfold answerRequest
  split
  · exact State.holdReply_holdFollows (taker_holdFollows k n payload h)
  · exact State.holdReply_holdFollows h

theorem requestFrame_holdFollows (k : Kind) (h : s.HoldFollows) :
    (requestFrame k (taker k) n tag payload s).HoldFollows := by
  unfold requestFrame
  split
  · exact h
  · split
    · exact answerRequest_holdFollows k (State.receiveFrame_holdFollows h)
    · exact State.receiveFrame_holdFollows h

theorem frameGood_holdFollows (h : s.HoldFollows) : (frameGood n kind tag payload s).HoldFollows := by
  unfold frameGood
  split
  · exact State.withPorts_holdFollows h
  · split
    · exact State.holdReply_holdFollows h
    · exact answerRequest_holdFollows _ h

theorem wholeFrame_holdFollows (h : s.HoldFollows) : (wholeFrame n kind tag payload s).HoldFollows := by
  unfold wholeFrame
  split
  · exact h
  · split
    · exact frameGood_holdFollows (State.receiveFrame_holdFollows h)
    · exact State.receiveFrame_holdFollows h

theorem State.completeWord_holdFollows (w : Word) (h : s.HoldFollows) : (s.completeWord n w).HoldFollows := by
  unfold State.completeWord
  split
  · exact h
  · split
    · split
      · exact frameGood_holdFollows (State.withPorts_holdFollows h)
      · exact State.withPorts_holdFollows h
    · exact State.withPorts_holdFollows h

end

/-! ### The events of the part -/

section
variable {s : State}

theorem State.reset_holdFollows : State.reset.HoldFollows := by
  simp [State.HoldFollows, State.reset, Ring.reset]

theorem State.seamPulse_holdFollows (h : s.HoldFollows) : s.seamPulse.HoldFollows := by
  rcases s.seamPulse_cases with ⟨-, hsame⟩ | ⟨-, -, -, -, hfull⟩ | ⟨-, -, -, -, hseam⟩
  · rwa [hsame]
  · rw [hfull]
    exact State.evalLines_holdFollows ((WebOnly.latch _ s).holdFollows h)
  · rw [hseam]
    exact State.evalLines_holdFollows ((WebOnly.recordSeam _ s).holdFollows h)

theorem State.doseTick_holdFollows (h : s.HoldFollows) : s.ageZones.addDoses.evalLines.HoldFollows :=
  State.evalLines_holdFollows ((WebOnly.withQueue _ _).holdFollows
    ((WebOnly.latchIf _ _ _).holdFollows ((WebOnly.latchIf _ _ _).holdFollows h)))

theorem State.turnaround_holdFollows (reply : ScreenId → Option DriveReply) (s : State) :
    (s.turnaround reply).HoldFollows := State.evalLines_holdFollows (State.evalHold_follow _)

/-- Every command goes on to a state in which HOLD follows (R84). -/
theorem exec_holdFollows (c : Instr) (h : s.HoldFollows) : ∃ t : State, exec c s = .next t ∧ t.HoldFollows := by
  cases c with
  | resetAssert => exact ⟨_, rfl, State.withPorts_holdFollows h⟩
  | resetRelease => exact ⟨_, rfl, State.reset_holdFollows⟩
  | encoderEdge =>
    refine ⟨_, rfl, ?_⟩
    split <;> exact h
  | driveCycle =>
    refine ⟨_, rfl, ?_⟩
    split
    · exact h
    · exact State.evalLines_holdFollows (State.evalHold_follow _)
  | ringFrameReturn =>
    refine ⟨_, rfl, ?_⟩
    split
    · exact h
    · split
      · exact h
      · split
        · exact s.turnaround_holdFollows _
        · exact h
  | turnaroundExpiry =>
    refine ⟨_, rfl, ?_⟩
    split
    · exact h
    · split
      · exact h
      · exact s.turnaround_holdFollows _
  | doseTick =>
    refine ⟨_, rfl, ?_⟩
    split
    · exact h
    · exact State.doseTick_holdFollows h
  | seamPulse =>
    refine ⟨_, rfl, ?_⟩
    split
    · exact h
    · exact State.seamPulse_holdFollows h
  | frameBroken port how =>
    cases how with
    | released => exact ⟨_, rfl, State.withPorts_holdFollows h⟩
    | checkWord word => exact ⟨_, rfl, State.completeWord_holdFollows word h⟩
  | kindRefused | fetch => exact ⟨_, rfl, wholeFrame_holdFollows h⟩
  | selectAsserted | selectReleased => exact ⟨_, rfl, State.withPorts_holdFollows h⟩
  | wordCompleted port word => exact ⟨_, rfl, State.completeWord_holdFollows word h⟩
  | linePut | screenPut | screenTune | screenGet | stretchSet | groupAlign | engage | lift | faultTake | screenClear
  | runBegin | runDrain | runAbort | segmentGet | webWhere | regReport | zonePut | zoneSample | curePut | zoneContents
  | reportTake | rollGet | statusGet | attnEnable | attnTake => exact ⟨_, rfl, requestFrame_holdFollows _ h⟩

end

end Sys2Proof.Machine

/-! ### The statement -/

open Sys2Proof Sys2Proof.Machine

/-- Settles O53: every command keeps HOLD following, and a step is the command at the front of the queue, or none. -/
theorem holdFollowsEveryStep : Obligations.HoldFollowsEveryStep := by
  unfold Obligations.HoldFollowsEveryStep
  intro s t h hstep
  unfold step at hstep
  split at hstep
  · cases hstep
    exact h
  · rename_i c rest _
    obtain ⟨u, hu, hfollows⟩ := exec_holdFollows (s := s.withPending rest) c h
    rw [hu] at hstep
    cases hstep
    exact hfollows

end

section
/-! PROOFS. The ring turnaround: which commands take it, what it makes of the slots and of the ring state, and its
statement. -/

namespace Sys2Proof.Machine

/-! ### What Engagement Control leaves, part by part -/

section
variable {s t : State}

theorem EngOnly.frame (h : EngOnly s t) : t = { s with
    screens := t.screens, ring := { s.ring with faults := t.ring.faults }, web := { s.web with queue := t.web.queue },
    ports := t.ports } := h.1

theorem EngOnly.latches (h : EngOnly s t) : Latches s t := h.2.1

theorem EngOnly.screen (h : EngOnly s t) (k : ScreenId) : t.screen k = { s.screen k with eng := (t.screen k).eng } := by
  obtain ⟨-, -, hscreens, -⟩ := h
  exact hscreens k

theorem EngOnly.queue (h : EngOnly s t) : unprinted t.web.queue = unprinted s.web.queue := by
  obtain ⟨-, -, -, hqueue⟩ := h
  exact hqueue

end

/-! ### Which words close the frame in flight (R73, R184, R185) -/

theorem ringHeader_eq (count : Byte) : ringHeader count = BitVec.ofNat 16 (0xA500 + count.toNat) := by
  have hor := Nat.shiftLeft_add_eq_or_of_lt count.isLt 0xA5
  refine BitVec.eq_of_toNat_eq ?_
  rw [ringHeader, BitVec.toNat_append, BitVec.toNat_ofNat, show BitVec.toNat (0xA5 : Byte) = 0xA5 from rfl, ← hor]
  have := count.isLt
  omega

theorem headerMatches_iff (count : Byte) (words : List Word) :
    headerMatches count words = true ↔ headerGood count words := by
  unfold headerGood
  rw [← ringHeader_eq]
  match words with
  | [] => simp [headerMatches]
  | [_] => simp [headerMatches]
  | a :: b :: _ =>
    suffices h : (a = ringHeader count ∧ b = ~~~a) ↔ (a = ringHeader count ∧ b = ~~~(ringHeader count)) by
      simpa [headerMatches] using h
    exact and_congr_right fun ha => by rw [ha]

/-- Both commands of a turnaround run it with the replies of their words. -/
theorem exec_turnaroundBy {s : State} {c : Instr} {reply : ScreenId → Option DriveReply} (h : s.turnaroundBy c reply) :
    exec c s = .next (s.turnaround reply) := by
  obtain ⟨hrun, count, words, hflight, ⟨hgood, rfl, rfl | ⟨htimer, rfl⟩⟩ | ⟨hbad, rfl, htimer, rfl⟩⟩ := h
  · have hmatches := (headerMatches_iff count words).mpr hgood
    simp [exec, execRingFrameReturn, hrun, hflight, hmatches]
  · have hmatches := (headerMatches_iff count words).mpr hgood
    simp [exec, execTurnaroundExpiry, hrun, hflight, htimer, hmatches]
  · have hmatches := mt (headerMatches_iff count words).mp hbad
    simp [exec, execTurnaroundExpiry, hrun, hflight, htimer, hmatches]

/-! ### The ring state (R77) -/

section
variable (t : Vector Screen 24) (reply : ScreenId → Option DriveReply)

theorem ringAfter_up : ringAfter .up t reply =
    if (∃ k : ScreenId, t[k].present = true) ∧ ∀ k : ScreenId, t[k].present = true → t[k].miss = 4
    then .lost else .up := by
  refine if_congr ?_ rfl rfl
  simp [List.filter_eq_nil_iff, mem_allScreens, or_iff_not_imp_left]

theorem ringAfter_lost : ringAfter .lost t reply =
    if ∃ k : ScreenId, t[k].present = true ∧ (reply k).isSome = true then .up else .lost := by
  refine if_congr ?_ rfl rfl
  simp [mem_allScreens]

end

/-! ### The stages of a turnaround -/

section
variable (reply : ScreenId → Option DriveReply) (s : State)

/-- The slot of every present screen is evaluated (R74). -/
def State.readSlots : State := s.mapScreens fun k x => if x.present then x.evalSlot (reply k) else x

/-- The ring state once the slots are evaluated. -/
def State.ringTurned : RingState := ringAfter s.ring.state (s.readSlots reply).screens reply

/-- The frame in flight is closed, and the ring state moves (R73, R77). -/
def State.closeFrame : State :=
  (s.readSlots reply).withRing { s.ring with inFlight := none, timer := false, state := s.ringTurned reply }

/-- Screen k is given the fault of its slot, if any (R75, R76). -/
def State.faultSlot (u : State) (k : ScreenId) : State :=
  if (s.screen k).present then
    match (s.screen k).slotFault (reply k) (s.ringTurned reply) with
    | some c => u.screenFault k c (u.seqUnder k)
    | none => u
  else u

/-- Every present screen is given the fault of its slot, in index order (R79). -/
def State.faultSlots : State := allScreens.foldl (s.faultSlot reply) (s.closeFrame reply)

theorem State.turnaround_eq : s.turnaround reply = (s.faultSlots reply).evalHold.evalLines := rfl

theorem State.screen_readSlots (k : ScreenId) : (s.readSlots reply).screen k =
    if (s.screen k).present then (s.screen k).evalSlot (reply k) else s.screen k := State.screen_mapScreens _ s k

theorem State.closeFrame_eq : s.closeFrame reply = { s with
    screens := (s.closeFrame reply).screens
    ring := { s.ring with inFlight := none, timer := false, state := s.ringTurned reply } } := by
  unfold State.closeFrame
  generalize s.ringTurned reply = ring
  unfold State.readSlots State.mapScreens State.withScreens State.withRing
  rfl

theorem State.port_closeFrame (n : PortId) : (s.closeFrame reply).port n = s.port n := by
  rw [State.closeFrame, State.port_withRing, State.readSlots, State.port_mapScreens]

theorem State.web_closeFrame : (s.closeFrame reply).web = s.web := by
  rw [State.closeFrame_eq]

theorem State.screen_closeFrame (k : ScreenId) : (s.closeFrame reply).screen k = (s.readSlots reply).screen k :=
  State.screen_withRing _ _ k

theorem State.present_readSlots (k : ScreenId) : ((s.readSlots reply).screen k).present = (s.screen k).present := by
  rw [State.screen_readSlots, Screen.evalSlot_eq]
  split <;> rfl

theorem EngOnly.faultSlot (u : State) (k : ScreenId) : EngOnly u (s.faultSlot reply u k) := by
  unfold State.faultSlot
  split
  · split
    · exact EngOnly.screenFault k _ _ u
    · exact EngOnly.refl u
  · exact EngOnly.refl u

/-- No fault is raised for a screen that is not present. -/
theorem State.faultSlot_absent (u : State) (k : ScreenId) {j : ScreenId} (h : (s.screen j).present = false) :
    ((s.faultSlot reply u k).screen j).eng = (u.screen j).eng := by
  unfold State.faultSlot
  split
  · rename_i hk
    have hne : j ≠ k := by rintro rfl; simp [h] at hk
    split
    · rw [State.screenFault_eng, if_neg fun hjk => hne hjk.1]
    · rfl
  · rfl

theorem EngOnly.faultSlots : EngOnly (s.closeFrame reply) (s.faultSlots reply) :=
  EngOnly.foldl _ (EngOnly.faultSlot reply s) _ _

theorem State.faultSlots_absent {j : ScreenId} (h : (s.screen j).present = false) :
    ((s.faultSlots reply).screen j).eng = (s.screen j).eng := by
  have hfold : ∀ (l : List ScreenId) (u : State),
      ((l.foldl (s.faultSlot reply) u).screen j).eng = (u.screen j).eng := by
    intro l u
    induction l generalizing u with
    | nil => rfl
    | cons k l ih => rw [List.foldl_cons, ih, s.faultSlot_absent reply u k h]
  have hclose : (s.closeFrame reply).screen j = s.screen j := by
    rw [State.screen_closeFrame, State.screen_readSlots, h]
    rfl
  unfold State.faultSlots
  rw [hfold, hclose]

/-! ### What a turnaround leaves -/

theorem State.turnaround_frame : s.turnaround reply = { s with
    screens := (s.turnaround reply).screens
    ring := { s.ring with
      inFlight := none, timer := false, state := s.ringTurned reply, faults := (s.turnaround reply).ring.faults,
      hold := (s.turnaround reply).ring.hold }
    web := { s.web with queue := (s.turnaround reply).web.queue }
    ports := (s.turnaround reply).ports } := by
  have hframe := (EngOnly.faultSlots reply s).frame
  rw [State.closeFrame_eq] at hframe
  rw [State.turnaround_eq]
  generalize s.faultSlots reply = u, s.ringTurned reply = ring at *
  rw [hframe]
  unfold State.evalLines State.mapPorts
  rfl

/-- A turnaround writes a screen's ring record as its slot says, and its engagement record. -/
theorem State.screen_turnaround (k : ScreenId) : (s.turnaround reply).screen k =
    { (s.readSlots reply).screen k with eng := ((s.turnaround reply).screen k).eng } := by
  have hscreen := (EngOnly.faultSlots reply s).screen k
  rw [State.screen_closeFrame] at hscreen
  rw [State.turnaround_eq, State.screen_evalLines, State.screen_evalHold, hscreen]

theorem State.screen_turnaround_present {k : ScreenId} (h : (s.screen k).present = true) :
    (s.turnaround reply).screen k = { s.screen k with
      miss := if (reply k).isSome then 0 else min 4 ((s.screen k).miss + 1), last := reply k
      eng := ((s.turnaround reply).screen k).eng } := by
  rw [State.screen_turnaround, State.screen_readSlots, if_pos h, ← Screen.evalSlot_miss, Screen.evalSlot_eq]

theorem State.screen_turnaround_absent {k : ScreenId} (h : (s.screen k).present = false) :
    (s.turnaround reply).screen k = s.screen k := by
  have heng : ((s.turnaround reply).screen k).eng = (s.screen k).eng := by
    rw [State.turnaround_eq, State.screen_evalLines, State.screen_evalHold, s.faultSlots_absent reply h]
  rw [State.screen_turnaround, heng, State.screen_readSlots, h]
  rfl

theorem State.turnaround_keepsRecord (k : ScreenId) : ((s.turnaround reply).screen k).sameRecord (s.screen k)
    ∧ ((s.turnaround reply).screen k).chan = (s.screen k).chan := by
  rcases Bool.eq_false_or_eq_true (s.screen k).present with h | h
  · rw [s.screen_turnaround_present reply h]
    exact ⟨⟨rfl, rfl, rfl, rfl, rfl, rfl, rfl⟩, rfl⟩
  · rw [s.screen_turnaround_absent reply h]
    exact ⟨⟨rfl, rfl, rfl, rfl, rfl, rfl, rfl⟩, rfl⟩

theorem State.port_turnaround (n : PortId) : ((s.turnaround reply).port n).sameSerial (s.port n)
    ∧ ((s.turnaround reply).port n).enabled = (s.port n).enabled := by
  obtain ⟨-, henabled, -, hserial⟩ := (EngOnly.faultSlots reply s).latches.keeps n
  rw [State.port_closeFrame] at henabled hserial
  rw [State.turnaround_eq, State.port_evalLines, State.port_evalHold]
  exact ⟨hserial, henabled⟩

theorem State.queue_turnaround : unprinted (s.turnaround reply).web.queue = unprinted s.web.queue := by
  rw [State.turnaround_eq, State.evalLines_web, State.evalHold_web, (EngOnly.faultSlots reply s).queue,
    State.web_closeFrame]

theorem State.ring_turnaround : (s.turnaround reply).ring.state = s.ringTurned reply := by
  rw [s.turnaround_frame reply]

/-- A ring that is UP goes LOST exactly when screens are present and each has missed four slots (R77). -/
theorem State.ring_turnaround_of_up (h : s.ring.state = .up) : (s.turnaround reply).ring.state =
    if (∃ k, ((s.turnaround reply).screen k).present = true)
      ∧ ∀ k, ((s.turnaround reply).screen k).present = true → ((s.turnaround reply).screen k).miss = 4
    then .lost else .up := by
  have hpresent : ∀ k, ((s.turnaround reply).screen k).present = ((s.readSlots reply).screen k).present :=
    fun k => by rw [State.screen_turnaround]
  have hmiss : ∀ k, ((s.turnaround reply).screen k).miss = ((s.readSlots reply).screen k).miss :=
    fun k => by rw [State.screen_turnaround]
  simp only [hpresent, hmiss]
  rw [State.ring_turnaround, State.ringTurned, h]
  exact ringAfter_up _ reply

/-- A ring that is LOST comes UP with the first valid reply of a present screen (R77). -/
theorem State.ring_turnaround_of_lost (h : s.ring.state = .lost) : (s.turnaround reply).ring.state =
    if ∃ k, (s.screen k).present = true ∧ (reply k).isSome = true then .up else .lost := by
  simp only [← s.present_readSlots reply]
  rw [State.ring_turnaround, State.ringTurned, h]
  exact ringAfter_lost _ reply

end

end Sys2Proof.Machine

/-! ### The statement -/

open Sys2Proof Sys2Proof.Machine

/-- Settles O17: the slots are evaluated, the ring state moves by them, and the faults given after that touch engagement
records, printed sets, the fault list and the attention sets alone. -/
theorem turnaroundEvaluatesSlots : Obligations.TurnaroundEvaluatesSlots := by
  unfold Obligations.TurnaroundEvaluatesSlots
  intro s c reply hby
  refine ⟨s.turnaround reply, exec_turnaroundBy hby, ?_, ?_, s.turnaround_holdFollows reply, fun k => ?_,
    s.queue_turnaround reply, s.port_turnaround reply, fun hdown => ?_, fun hup => ?_, fun hup => ?_,
    s.ring_turnaround_of_lost reply⟩
  · have hframe := s.turnaround_frame reply
    generalize s.turnaround reply = t, s.ringTurned reply = ring at *
    rw [hframe]
  · rw [s.turnaround_frame reply]
  · obtain ⟨hrecord, hchan⟩ := s.turnaround_keepsRecord reply k
    refine ⟨hrecord, hchan, s.screen_turnaround_absent reply, fun h => ?_⟩
    rw [s.screen_turnaround_present reply h]
    exact ⟨rfl, rfl⟩
  · rw [State.ring_turnaround, State.ringTurned, hdown]
    rfl
  · rw [s.ring_turnaround_of_up reply hup]
    split
    · exact .inr rfl
    · exact .inl rfl
  · rw [s.ring_turnaround_of_up reply hup]
    simp only [ite_eq_left_iff, reduceCtorEq, imp_false, not_not]

end

section
/-! PROOFS. SCREEN.CLEAR: its checks, the screen it returns from FAULTED, and its statement. -/

namespace Sys2Proof.Machine

/-! ### The checks (R82) -/

/-- The checks of SCREEN.CLEAR on the screen it names. -/
def State.mayClear (s : State) (k : ScreenId) : Prop :=
  s.engState k = .faulted ∧ answersWell (s.screen k).last = true
    ∧ ¬ (inSet s.planned k = true ∧ s.web.lineState = .run ∧ groupAligned s.screens k = false)

theorem answersWell_iff (last : Option DriveReply) :
    answersWell last = true ↔ last ≠ none ∧ last.map DriveReply.state ≠ some .fault := by
  cases last <;> simp [answersWell]

theorem State.mayClear_iff (s : State) (k : ScreenId) : s.mayClear k ↔
    s.engState k = .faulted
    ∧ ((s.screen k).last ≠ none ∧ (s.screen k).last.map DriveReply.state ≠ some .fault)
    ∧ ¬ (inSet s.planned k = true ∧ s.web.lineState = .run
        ∧ ¬ ∃ a, anchorOf s.screens k = some a ∧ (s.screen a).aligned = true) := by
  rw [← answersWell_iff, ← s.groupAligned_iff, Bool.not_eq_true]
  rfl

section
variable {s : State} {n : PortId} {tag : Byte} {payload : List Word} {k : ScreenId}

theorem screenClearParse_error {e : Answer} (h : oneScreen payload = .error e) :
    screenClearParse payload s = .error e := by
  simp [screenClearParse, h]

theorem screenClearParse_ok (h : oneScreen payload = .ok k) (hmay : s.mayClear k) :
    screenClearParse payload s = .ok k := by
  obtain ⟨hfaulted, hreply, hgroup⟩ := hmay
  unfold screenClearParse
  rw [h]
  dsimp only
  rw [if_neg (not_not.mpr hfaulted), if_neg (by simp [hreply]), if_neg hgroup]

theorem screenClearParse_state (h : oneScreen payload = .ok k) (hmay : ¬ s.mayClear k) :
    screenClearParse payload s = .error (refuse .state 0) := by
  unfold screenClearParse
  rw [h]
  dsimp only
  split_ifs with hfaulted hreply hgroup
  · rfl
  · rfl
  · rfl
  · exact absurd ⟨not_not.mp hfaulted, by simpa using hreply, hgroup⟩ hmay

/-! ### The effect (R83, R84) -/

/-- An accepted SCREEN.CLEAR of screen k. -/
def State.clear (k : ScreenId) (s : State) : State := (s.modEng k (s.cleared k)).evalHold

theorem State.cleared_planned (e : Engagement) (h : inSet s.planned k = true ∧ s.web.lineState = .run) :
    s.cleared k e = { state := .armed, cause := none, startSeq := s.web.nextSeq, stopSeq := 0, window := false } :=
  if_pos h

theorem State.cleared_unplanned (e : Engagement) (h : ¬ (inSet s.planned k = true ∧ s.web.lineState = .run)) :
    s.cleared k e = { state := .parked, cause := none, startSeq := 0, stopSeq := 0, window := false } :=
  if_neg h

theorem State.cleared_ne_faulted (e : Engagement) : (s.cleared k e).state ≠ .faulted := by
  unfold State.cleared
  split <;> exact EngState.noConfusion

theorem State.eng_clear : ((s.clear k).screen k).eng = s.cleared k (s.screen k).eng := by
  rw [State.clear, State.screen_evalHold, State.screen_modEng, if_pos rfl]

/-- HOLD after a clearing rests on the other screens. -/
theorem State.hold_clear : (s.clear k).ring.hold = true ↔ s.ring.state = .lost ∨ (s.line.holdOnFault = true
    ∧ ∃ m, m ≠ k ∧ inSet s.planned m = true ∧ s.engState m = .faulted) := by
  have hfaulted : ∀ m, (s.modEng k (s.cleared k)).engState m = .faulted ↔ m ≠ k ∧ s.engState m = .faulted := by
    intro m
    unfold State.engState
    rw [State.screen_modEng]
    split
    · rename_i h
      exact iff_of_false (State.cleared_ne_faulted (s.screen k).eng) fun hm => hm.1 h
    · rename_i h
      exact (and_iff_right h).symm
  refine (s.modEng k (s.cleared k)).holdCondition_iff.trans ?_
  simp only [hfaulted, State.modEng_ring, State.modEng_line, State.modEng_planned]
  simp only [and_left_comm]

theorem takeScreenClear_error (n : PortId) {e : Answer} (h : screenClearParse payload s = .error e) :
    takeScreenClear n payload s = (s, e) := by
  simp [takeScreenClear, h]

theorem takeScreenClear_ok (n : PortId) {e : Engagement} (h : screenClearParse payload s = .ok k)
    (he : s.cleared k (s.screen k).eng = e) :
    takeScreenClear n payload s = (s.clear k, accept (words1 e.state.toCode ++ words2 e.startSeq
      ++ words1 (if inSet s.planned k then 1 else 0))) := by
  unfold takeScreenClear
  rw [h, ← he, ← State.eng_clear, ← flagWord_eq]
  rfl

/-! ### SCREEN.CLEAR as a command -/

theorem exec_screenClear_error {e : Answer} (hears : s.hears n .line payload)
    (h : screenClearParse payload s = .error e) :
    exec (.screenClear n tag payload) s = .next (s.answered n 0x39 tag payload e.code e.index e.words) := by
  obtain ⟨hrun, hrole, hlen⟩ := hears
  have hparse : screenClearParse payload (s.receiveFrame n 0x39 tag payload) = .error e := h
  exact exec_unchanged (k := .screenClear) ⟨hrun, hlen⟩ (by rw [hrole]; rfl) (takeScreenClear_error n hparse)

theorem exec_screenClear_ok {e : Engagement} (hears : s.hears n .line payload) (h : screenClearParse payload s = .ok k)
    (he : s.cleared k (s.screen k).eng = e) :
    exec (.screenClear n tag payload) s = .next ((s.clear k).answered n 0x39 tag payload .ok 0
      (words1 e.state.toCode ++ words2 e.startSeq ++ words1 (if inSet s.planned k then 1 else 0))) := by
  obtain ⟨hrun, hrole, hlen⟩ := hears
  have hparse : screenClearParse payload (s.receiveFrame n 0x39 tag payload) = .ok k := h
  exact exec_changed (k := .screenClear) (t := s.clear k) ⟨hrun, hlen⟩ (by rw [hrole]; rfl)
    (takeScreenClear_ok n hparse he)

end

end Sys2Proof.Machine

/-! ### The statement -/

open Sys2Proof Sys2Proof.Machine

/-- Settles O40: the parse makes the checks of R82, and the screen cleared is armed or parked as R83 says. -/
theorem screenClearReturnsFaultedScreen : Obligations.ScreenClearReturnsFaultedScreen := by
  unfold Obligations.ScreenClearReturnsFaultedScreen
  refine ⟨?_, ?_, ?_⟩
  · rintro s n tag payload f k e planned hears hf hk hfaulted hdrive hreply rfl hgroup harmed hparked
    have hmay : s.mayClear k :=
      (s.mayClear_iff k).mpr ⟨hfaulted, ⟨hreply, hdrive⟩, fun ⟨hplanned, hrun, hbad⟩ => hbad (hgroup hplanned hrun)⟩
    have he : s.cleared k (s.screen k).eng = e := by
      by_cases h : inSet s.planned k = true ∧ s.web.lineState = .run
      · rw [State.cleared_planned _ h, harmed h]
      · rw [State.cleared_unplanned _ h, hparked h]
    refine ⟨(s.clear k).ring.hold, ?_, State.hold_clear⟩
    rw [exec_screenClear_ok hears (screenClearParse_ok (oneScreen_of_index hf hk) hmay) he, ← he]
    rfl
  · exact Kind.checksOneIndex_of_oneScreen (fun r h => by rw [h (by decide)]; rfl)
      fun n payload s e h => takeScreenClear_error n (screenClearParse_error h)
  · intro s n tag payload f k hears hf hk hbad
    refine exec_screenClear_error hears (screenClearParse_state (oneScreen_of_index hf hk) ?_)
    rw [State.mayClear_iff]
    tauto

end

section
/-! PROOFS. RUN.BEGIN: its checks in order, the run it opens, and its statement. -/

namespace Sys2Proof.Machine

/-! ### Checks in order, numbered -/

/-- A reason is the number of the first check that fails, counted from `code`; with none failing there is none. -/
def FirstFailing (reason : Option Nat) : Nat → List Prop → Prop
  | _, [] => reason = none
  | code, check :: checks =>
    (¬ check → reason = some code) ∧ (check → FirstFailing reason (code + 1) checks)

section
variable {reason : Option Nat} {code : Nat} {checks : List Prop}

/-- A reason that begins with a test makes a check first. -/
theorem FirstFailing.test {test check : Prop} [Decidable test] (htest : test ↔ ¬ check)
    (hrest : check → FirstFailing reason (code + 1) checks) :
    FirstFailing (if test then some code else reason) code (check :: checks) :=
  ⟨fun hfail => if_pos (htest.mpr hfail), fun hpass => by
    rw [if_neg fun ht => htest.mp ht hpass]
    exact hrest hpass⟩

theorem FirstFailing.none_of_all (h : FirstFailing reason code checks) (hall : ∀ p ∈ checks, p) : reason = none := by
  induction checks generalizing code with
  | nil => exact h
  | cons check checks ih =>
    rw [List.forall_mem_cons] at hall
    exact ih (h.2 hall.1) hall.2

theorem FirstFailing.some_of_fails {i : Nat} (h : FirstFailing reason code checks) (hi : i < checks.length)
    (hbefore : ∀ p ∈ checks.take i, p) (hfail : ¬ checks[i]) : reason = some (code + i) := by
  induction checks generalizing code i with
  | nil => exact absurd hi (Nat.not_lt_zero i)
  | cons check checks ih =>
    cases i with
    | zero => exact h.1 hfail
    | succ i =>
      rw [List.take_succ_cons, List.forall_mem_cons] at hbefore
      rw [Nat.add_comm i, ← Nat.add_assoc]
      exact ih (h.2 hbefore.1) (Nat.lt_of_succ_lt_succ hi) hbefore.2 hfail

end

/-! ### RUN.BEGIN: its checks (R89, R13) -/

theorem EngState.inactive_iff (e : EngState) : e.inactive = true ↔ e = .absent ∨ e = .parked ∨ e = .faulted := by
  cases e <;> decide

theorem State.allInactive_iff (s : State) : s.allInactive = true ↔
    ∀ k, s.engState k = .absent ∨ s.engState k = .parked ∨ s.engState k = .faulted := by
  simp [State.allInactive, mem_allScreens, EngState.inactive_iff]

/-- The checks of RUN.BEGIN in order, the geometry checks of R13 as the last three. -/
def State.runBeginChecks (s : State) : List Prop :=
  [s.web.lineState = .setup, (s.screen 0).present = true, s.oven.zones ≠ [],
    ∀ k, s.engState k = .absent ∨ s.engState k = .parked ∨ s.engState k = .faulted, s.line.xInsp ≠ 0,
    ∀ k, (s.screen k).present = true → (s.screen k).dist < s.line.xInsp, s.line.xInsp ≤ s.oven.b0]

theorem State.runBeginReason_firstFailing (s : State) : FirstFailing s.runBeginReason 1 s.runBeginChecks := by
  unfold State.runBeginReason State.geometry State.runBeginChecks
  refine .test Iff.rfl fun _ => .test ?_ fun _ => .test not_not.symm fun hzones => .test ?_ fun _ =>
    .test not_not.symm fun _ => .test ?_ fun _ => .test ?_ fun _ => rfl
  · exact Bool.not_eq_true _ ▸ Iff.rfl
  · rw [← s.allInactive_iff, Bool.not_eq_true]
  · simp [mem_allScreens]
  · rw [or_iff_right hzones, Int.not_le]

/-! ### RUN.BEGIN: its effect (R90) -/

/-- The run opens with the roll of the next id, which has no seam and counts nothing yet. -/
theorem State.runBegin_eq (s : State) : s.runBegin = { s with
    phase := { s.phase with highWater := (s.screen 0).chan.n },
    web := { s.web with
      lineState := .run, lastSeam := none,
      nextRollId := if s.web.nextRollId = 65535 then 1 else s.web.nextRollId + 1,
      rolls := s.web.rolls ++
        [{ id := s.web.nextRollId, seamAt := none, firstSeq := none, lastSeq := none, left := 0,
           tally := ⟨0, 0, 0, 0, 0, 0, 0, 0, 0⟩, totalLength := 0 }] } } := rfl

section
variable {s : State} {n : PortId} {tag : Byte} {payload : List Word}

theorem takeRunBegin_range (n : PortId) {a : Answer} (h : noFields payload = some a) :
    takeRunBegin n payload s = (s, a) := by
  simp [takeRunBegin, h]

theorem takeRunBegin_refused (n : PortId) {reason : Nat} (h : noFields payload = none)
    (hreason : s.runBeginReason = some reason) :
    takeRunBegin n payload s = (s, { code := .state, index := 0, words := words1 reason }) := by
  simp [takeRunBegin, h, hreason]

theorem takeRunBegin_ok (n : PortId) (h : noFields payload = none) (hreason : s.runBeginReason = none) :
    takeRunBegin n payload s =
      (s.runBegin, accept (words1 s.web.nextRollId ++ words2 s.web.nextSeq ++ words3 s.pos.p)) := by
  simp [takeRunBegin, h, hreason]

/-! ### RUN.BEGIN as a command -/

theorem exec_runBegin_role (hears : s.hearsAny payload) (hrole : (s.port n).role ≠ .line) :
    exec (.runBegin n tag payload) s = .next (s.answered n 0x40 tag payload .role 0 []) :=
  exec_role (k := .runBegin) hears (beq_false_of_ne hrole)

theorem exec_runBegin_range {f : Field} {rest : List Field} (hears : s.hearsAny payload)
    (hrole : (s.port n).role = .line) (h : fields payload = f :: rest) :
    exec (.runBegin n tag payload) s = .next (s.answered n 0x40 tag payload .range f.index []) :=
  exec_unchanged (k := .runBegin) hears (beq_iff_eq.mpr hrole) (takeRunBegin_range n (noFields_of_field h))

theorem exec_runBegin_refused {reason : Nat} (hears : s.hearsAny payload) (hrole : (s.port n).role = .line)
    (h : fields payload = []) (hreason : s.runBeginReason = some reason) :
    exec (.runBegin n tag payload) s = .next (s.answered n 0x40 tag payload .state 0 (words1 reason)) :=
  have hreceived : (s.receiveFrame n 0x40 tag payload).runBeginReason = some reason := hreason
  exec_unchanged (k := .runBegin) hears (beq_iff_eq.mpr hrole) (takeRunBegin_refused n (noFields_of_nil h) hreceived)

theorem exec_runBegin_ok (hears : s.hearsAny payload) (hrole : (s.port n).role = .line) (h : fields payload = [])
    (hreason : s.runBeginReason = none) :
    exec (.runBegin n tag payload) s = .next (s.runBegin.answered n 0x40 tag payload .ok 0
      (words1 s.web.nextRollId ++ words2 s.web.nextSeq ++ words3 s.pos.p)) :=
  have hreceived : (s.receiveFrame n 0x40 tag payload).runBeginReason = none := hreason
  exec_changed (k := .runBegin) (t := s.runBegin) hears (beq_iff_eq.mpr hrole)
    (takeRunBegin_ok n (noFields_of_nil h) hreceived)

end

end Sys2Proof.Machine

/-! ### The statement -/

open Sys2Proof Sys2Proof.Machine

/-- Settles O41: the reason of a refusal is the number of the first check of R89 that fails, and with none failing the
run opens as R90 says. -/
theorem runBeginChecksThenOpensTheRun : Obligations.RunBeginChecksThenOpensTheRun := by
  unfold Obligations.RunBeginChecksThenOpensTheRun
  rintro s n tag payload checks hears rfl
  have hreason := s.runBeginReason_firstFailing
  refine ⟨exec_runBegin_role hears, fun hrole => ⟨fun f rest => exec_runBegin_range hears hrole, fun hnone => ⟨?_, ?_⟩⟩⟩
  · intro i hbefore hfail
    have hfirst := hreason.some_of_fails i.isLt hbefore (hfail _ (List.getElem?_eq_getElem i.isLt))
    rw [Nat.add_comm] at hfirst
    exact exec_runBegin_refused hears hrole hnone hfirst
  · intro hall
    rw [← State.runBegin_eq]
    exact exec_runBegin_ok hears hrole hnone (hreason.none_of_all hall)

end

section
/-! PROOFS. REG.REPORT accepted: the register list and the trim correction, a request that latches a kind, and the
statement of spec/07 on them. -/

namespace Sys2Proof.Machine

/-! ### The register list (R115) -/

theorem filter_of_all_above {k : ScreenId} {l : List RegEntry} (h : ∀ r ∈ l, k < r.screen) :
    l.filter (fun r => decide (r.screen < k)) = [] ∧ l.filter (fun r => decide (k < r.screen)) = l :=
  ⟨List.filter_eq_nil_iff.mpr fun r hr => by simpa using (h r hr).le,
    List.filter_eq_self.mpr fun r hr => by simpa using h r hr⟩

/-- In a list in screen order an entry is stored between the entries of the screens before its own and of those after. -/
theorem storeEntry_eq (e : RegEntry) {l : List RegEntry} (h : (l.map RegEntry.screen).Pairwise (· < ·)) :
    storeEntry e l = l.filter (fun r => decide (r.screen < e.screen))
      ++ e :: l.filter (fun r => decide (e.screen < r.screen)) := by
  induction l with
  | nil => rfl
  | cons x xs ih =>
    obtain ⟨hx, hxs⟩ := List.pairwise_cons.mp h
    replace hx : ∀ r ∈ xs, x.screen < r.screen := fun r hr => hx _ (List.mem_map_of_mem hr)
    unfold storeEntry
    rcases lt_trichotomy x.screen e.screen with hlt | heq | hgt
    · rw [if_neg hlt.ne, if_neg hlt.asymm, ih hxs]
      simp [hlt, hlt.asymm]
    · obtain ⟨hbefore, hafter⟩ := filter_of_all_above fun r hr => heq ▸ hx r hr
      rw [if_pos heq]
      simp [heq, hbefore, hafter]
    · obtain ⟨hbefore, hafter⟩ := filter_of_all_above fun r hr => hgt.trans (hx r hr)
      rw [if_neg hgt.ne', if_pos hgt]
      simp [hgt, hgt.asymm, hbefore, hafter]

/-! ### The outcome (R117 to R120) -/

section
variable {seq : Nat} {e : Int} {x : Screen}

theorem regOutcome_stored (h : seq ≤ x.chan.lastCorrected) : regOutcome seq e x = .stored := if_pos h

theorem regOutcome_deadband (h : x.chan.lastCorrected < seq) (hband : (e.natAbs : Int) ≤ x.tuning.deadband) :
    regOutcome seq e x = .deadband :=
  (if_neg h.not_ge).trans (if_pos hband)

theorem regOutcome_corrected (h : x.chan.lastCorrected < seq) (hband : x.tuning.deadband < e.natAbs) :
    regOutcome seq e x = .corrected (correction x.tuning e) :=
  (if_neg h.not_ge).trans (if_neg hband.not_ge)

/-- The outcome in the values of the reply: its code, the correction, the trim target and the last-corrected seq. -/
structure OutcomeValues (x : Screen) (o : RegOutcome) (seq code : Nat) (c target : Int) (last : Nat) : Prop where
  chan : reported seq o x = { x.chan with target := target, lastCorrected := last }
  words : o.words = words1 code ++ words1 c
  bites : limitBites x o = true ↔ code = 2 ∧ target ≠ x.chan.target - c

theorem OutcomeValues.stored : OutcomeValues x .stored seq 0 0 x.chan.target x.chan.lastCorrected where
  chan := rfl
  words := rfl
  bites := by simp [limitBites]

theorem OutcomeValues.deadband : OutcomeValues x .deadband seq 1 0 x.chan.target seq where
  chan := rfl
  words := rfl
  bites := by simp [limitBites]

theorem OutcomeValues.corrected (c : Int) : OutcomeValues x (.corrected c) seq 2 c (newTarget x c) seq where
  chan := rfl
  words := rfl
  bites := by simp [limitBites]

end

/-! ### The checks and the effect (R113 to R116) -/

section
variable {s : State} {payload : List Word} {f g h : Field} {k : ScreenId} {q : Segment}

theorem regReportParse_ok (hfields : fields payload = [f, g, h]) (hlow : 1 ≤ f.value) (hhigh : f.value ≤ 4294967295)
    (hk : g.value = k.val) :
    regReportParse payload = .ok { seq := f.value, screen := k, screenIndex := g.index, error := h.signed } := by
  unfold regReportParse
  rw [hfields]
  dsimp only
  rw [if_neg (by omega), dif_pos (hk ▸ k.isLt)]
  simp only [hk]

theorem regReportAccept_ok {r : RegReport} (hq : segmentOf s.web.queue r.seq = some q) (hcamera : q.camera = true)
    (hkey : r.screen ≠ 0) (hprinted : inSet q.printed r.screen = true) (hpresent : (s.screen r.screen).present = true) :
    regReportAccept r s = .ok q := by
  simp [regReportAccept, hq, hcamera, hkey, hprinted, hpresent]

theorem takeRegReport_ok (n : PortId) {r : RegReport} {e : Int} (hparse : regReportParse payload = .ok r)
    (haccept : regReportAccept r s = .ok q) (he : clamp (-32000) 32000 r.error = e) :
    takeRegReport n payload s = (s.report r.seq r.screen e, accept (reportWords r q e s)) := by
  simp [takeRegReport, hparse, haccept, he]

/-- What a report stores: the entry in the segment's register list, and the channel. -/
def State.storeReport (seq : Nat) (k : ScreenId) (e : Int) (s : State) : State :=
  (s.withQueue (s.web.queue.map fun y =>
    if y.seq = seq then { y with regs := storeEntry (entryFor s.line.tolerance k e) y.regs } else y)).modChan k
      fun _ => reported seq (regOutcome seq e (s.screen k)) (s.screen k)

/-- An accepted report stores, latches TRIM_AT_LIMIT where the limit clamp bites, and evaluates the lines. -/
theorem State.report_eq (seq : Nat) (k : ScreenId) (e : Int) (s : State) : s.report seq k e =
    ((s.storeReport seq k e).latchIf (limitBites (s.screen k) (regOutcome seq e (s.screen k))) .trimAtLimit).evalLines :=
  rfl

section
variable {seq code last : Nat} {e c target : Int} {out : Bool} (hout : out = true ↔ s.line.tolerance < e.natAbs)
  (hvalues : OutcomeValues (s.screen k) (regOutcome seq e (s.screen k)) seq code c target last)
include hout

theorem entryFor_eq : entryFor s.line.tolerance k e = { screen := k, error := e, outOfTol := out } := by
  have hflag : decide (s.line.tolerance < e.natAbs) = out := by rw [Bool.eq_iff_iff, decide_eq_true_eq, hout]
  rw [entryFor, hflag]

include hvalues

theorem State.storeReport_eq (hlists : ∀ y ∈ s.web.queue, (y.regs.map RegEntry.screen).Pairwise (· < ·)) :
    s.storeReport seq k e = { s with
      screens := s.screens.set k { s.screen k with
        chan := { (s.screen k).chan with target := target, lastCorrected := last } }
      web := { s.web with queue := s.web.queue.map fun y =>
        if y.seq = seq then
          { y with regs := y.regs.filter (fun r => decide (r.screen < k)) ++
              { screen := k, error := e, outOfTol := out } :: y.regs.filter (fun r => decide (k < r.screen)) }
        else y } } := by
  have hqueue := List.map_congr_left fun y hy =>
    congrArg (fun l => if y.seq = seq then { y with regs := l } else y)
      (storeEntry_eq { screen := k, error := e, outOfTol := out } (hlists y hy))
  unfold State.storeReport
  rw [hvalues.chan, entryFor_eq hout, hqueue]
  rfl

/-- The reply in the values of R123. -/
theorem reportWords_eq {index : Nat} {error : Int} :
    reportWords { seq := seq, screen := k, screenIndex := index, error := error } q e s =
      words2 seq ++ words1 k.val ++ words1 e ++ words1 (if e = error then 0 else 1)
        ++ words1 (if out then 1 else 0) ++ words1 (if q.regs.any fun r => r.screen == k then 1 else 0)
        ++ words1 code ++ words1 c ++ words1 (if code = 2 ∧ target ≠ (s.screen k).chan.target - c then 1 else 0)
        ++ words1 target ++ words2 last := by
  unfold reportWords
  dsimp only
  rw [entryFor_eq hout, hvalues.words, hvalues.chan]
  simp only [flagWord_eq, hvalues.bites, bne_iff_ne, ne_eq, ite_not, List.append_assoc]

end

end

/-! ### A request whose owner latches a kind -/

/-- Port n has received a whole frame, its owner has raised a kind if a condition holds and evaluated the lines, and the
port holds a reply; everything else is as in s. -/
def State.answeredLatching (s : State) (n : PortId) (kind tag : Byte) (payload : List Word) (raise : Bool)
    (event : EventKind) (a : Answer) : State :=
  ((s.receiveFrame n kind tag payload).latchIf raise event).evalLines.holdReply n kind tag a

section
variable (s : State) (n : PortId) (kind tag : Byte) (payload : List Word) (raise : Bool) (event : EventKind) (a : Answer)

theorem State.answeredLatching_eq : s.answeredLatching n kind tag payload raise event a =
    { s.answered n kind tag payload a.code a.index a.words with
      ports := (s.answeredLatching n kind tag payload raise event a).ports } := by
  cases raise <;> unfold State.answeredLatching State.evalLines State.latchIf State.latch State.mapPorts <;> rfl

theorem State.answeredLatching_linesFollow (hrun : s.inReset = false) :
    (s.answeredLatching n kind tag payload raise event a).LinesFollow := by
  rw [State.answeredLatching, holdReply_evalLines]
  exact State.evalLines_follow _ (by simpa using hrun)

/-- Of a port no more than the latched set and the line differ from what a plain answer leaves. -/
theorem State.port_answeredLatching (m : PortId) : (s.answeredLatching n kind tag payload raise event a).port m =
    { (s.answered n kind tag payload a.code a.index a.words).port m with
      latched := ((s.answeredLatching n kind tag payload raise event a).port m).latched
      line := ((s.answeredLatching n kind tag payload raise event a).port m).line } := by
  unfold State.answeredLatching State.answered
  simp only [State.port_holdReply, State.port_evalLines, State.port_latchIf]
  cases raise <;> split_ifs <;> rfl

theorem State.latched_answeredLatching (m : PortId) (v : EventKind) :
    hasKind ((s.answeredLatching n kind tag payload raise event a).port m).latched v ↔
      hasKind (s.port m).latched v ∨ (raise = true ∧ v = event ∧ (s.port m).role.sees v) := by
  rw [State.answeredLatching, State.latched_holdReply, State.port_evalLines, State.hasKind_latchIf,
    State.latched_receiveFrame, State.role_receiveFrame]

end

/-- The command of a kind whose owner makes a change that touches no port, raises a kind and evaluates the lines. -/
theorem exec_latching {k : Kind} {n : PortId} {tag : Byte} {payload : List Word} {s t : State} {raise : Bool}
    {event : EventKind} {a : Answer} (h : s.hearsAny payload) (hr : permits k (s.port n).role = true)
    (ht : taker k n payload (s.receiveFrame n k.code tag payload) =
      (((t.receiveFrame n k.code tag payload).latchIf raise event).evalLines, a)) :
    exec (k.command n tag payload) s = .next (t.answeredLatching n k.code tag payload raise event a) := by
  rw [exec_command, requestFrame_taken h hr, ht]
  rfl

/-! ### REG.REPORT as a command -/

theorem exec_regReport_ok {s : State} {n : PortId} {tag : Byte} {payload : List Word} {r : RegReport} {q : Segment}
    {e : Int} (hears : s.hears n .inspect payload) (hparse : regReportParse payload = .ok r)
    (haccept : regReportAccept r s = .ok q) (he : clamp (-32000) 32000 r.error = e) :
    exec (.regReport n tag payload) s = .next ((s.storeReport r.seq r.screen e).answeredLatching n 0x50 tag payload
      (limitBites (s.screen r.screen) (regOutcome r.seq e (s.screen r.screen))) .trimAtLimit
      (accept (reportWords r q e s))) := by
  obtain ⟨hrun, hrole, hlen⟩ := hears
  have hreceived : regReportAccept r (s.receiveFrame n 0x50 tag payload) = .ok q := haccept
  exact exec_latching (k := .regReport) ⟨hrun, hlen⟩ (by rw [hrole]; rfl) (takeRegReport_ok n hparse hreceived he)

end Sys2Proof.Machine

/-! ### The statement -/

open Sys2Proof Sys2Proof.Machine

/-- Settles O46: an accepted report is an answer that may latch TRIM_AT_LIMIT to the state with the entry and the channel
stored; in ordered lists the entry stands in screen order, and the outcome decides the channel and the reply. -/
theorem regReportStoresAndCorrects : Obligations.RegReportStoresAndCorrects := by
  unfold Obligations.RegReportStoresAndCorrects
  rintro s a n tag payload f g h k q x e c target outcome last out hears hfields hlow hhigh hk hq hcamera hkey hprinted
    rfl hpresent hlists hbelow habove hwithin hout hstored hdeadband hcorrected rfl
  have hvalues : OutcomeValues (s.screen k) (regOutcome f.value e (s.screen k)) f.value outcome c target last := by
    rcases lt_or_ge (s.screen k).chan.lastCorrected f.value with hnewer | holder
    · rcases lt_or_ge (s.screen k).tuning.deadband (e.natAbs : Int) with hbeyond | hinside
      · obtain ⟨rfl, rfl, rfl, rfl⟩ := hcorrected hnewer hbeyond
        exact regOutcome_corrected hnewer hbeyond ▸ .corrected _
      · obtain ⟨rfl, rfl, rfl, rfl⟩ := hdeadband hnewer hinside
        exact regOutcome_deadband hnewer hinside ▸ .deadband
    · obtain ⟨rfl, rfl, rfl, rfl⟩ := hstored holder
      exact regOutcome_stored holder ▸ .stored
  have hexec := exec_regReport_ok (tag := tag) hears (regReportParse_ok hfields hlow hhigh hk)
    (regReportAccept_ok hq hcamera hkey hprinted hpresent) (clamp_eq_of_cases (by decide) hbelow habove hwithin)
  dsimp only at hexec
  rw [State.storeReport_eq hout hvalues hlists, reportWords_eq hout hvalues] at hexec
  refine ⟨_, hexec, State.answeredLatching_eq .., State.answeredLatching_linesFollow _ _ _ _ _ _ _ _ hears.1,
    fun m => ⟨State.port_answeredLatching .., fun v => ?_⟩⟩
  rw [State.latched_answeredLatching, hvalues.bites]
  exact or_congr_right (and_comm.trans and_assoc)

end

section
/-! PROOFS. DOSE_TICK: how a zone ages, the zones that a segment overlaps, what they add to it, and the statement. -/

namespace Sys2Proof.Machine

/-! ### Ageing (R138) -/

section
variable (z : Zone)

theorem agedFreshness_dead_iff (age : Nat) (f : Freshness) : agedFreshness age f = .dead ↔ f = .dead ∨ 30 ≤ age := by
  cases f with
  | dead => simp [agedFreshness]
  | stale => simp [agedFreshness]
  | fresh => simp only [agedFreshness]; split_ifs <;> simp_all

theorem agedFreshness_fresh_iff (age : Nat) (f : Freshness) : agedFreshness age f = .fresh ↔ f = .fresh ∧ age < 5 := by
  cases f with
  | dead => simp [agedFreshness]
  | stale => simp only [agedFreshness]; split_ifs <;> simp
  | fresh => simp only [agedFreshness]; split_ifs <;> simp <;> omega

theorem Zone.older_age : z.older.age = min 255 (z.age + 1) := rfl

theorem Zone.older_freshness : z.older.freshness = agedFreshness (min 255 (z.age + 1)) z.freshness := rfl

theorem Zone.turnsStale_iff : z.turnsStale = true ↔ z.freshness = .fresh ∧ 4 ≤ z.age := by
  have hage : 5 ≤ min 255 (z.age + 1) ↔ 4 ≤ z.age := by omega
  simp [Zone.turnsStale, Zone.older_age, hage]

theorem Zone.turnsDead_iff : z.turnsDead = true ↔ z.freshness ≠ .dead ∧ 29 ≤ z.age := by
  have hage : 30 ≤ min 255 (z.age + 1) ↔ 29 ≤ z.age := by omega
  simp only [Zone.turnsDead, Bool.and_eq_true, bne_iff_ne, beq_iff_eq, Zone.older_freshness, agedFreshness_dead_iff, hage]
  tauto

/-- The excess of R139 is that of the model. -/
theorem Zone.excess_eq_rate (tBase : Nat) : z.excess tBase = z.rate tBase := by
  have hmax : max z.temp tBase - tBase = z.temp - tBase := by omega
  unfold Zone.excess Zone.rate
  cases z.freshness <;> simp [hmax]

end

/-! ### The zones that a segment overlaps (R140) -/

section
variable {p : Int} {g : Segment} {spans : List (Int × Zone)}

theorem overlap_nonneg (p : Int) (g : Segment) (low high : Int) : 0 ≤ overlap p g low high := le_max_left _ _

/-- What holds of every overlapped zone and its overlap. -/
theorem forall_mem_overlaps {Q : Int × Zone → Prop} : (∀ oz ∈ overlaps p g spans, Q oz) ↔
    ∀ lz ∈ spans, 0 < overlap p g lz.1 lz.2.zEnd → Q (overlap p g lz.1 lz.2.zEnd, lz.2) := by
  unfold overlaps
  simp only [List.mem_filter, List.mem_map, decide_eq_true_eq, and_imp, forall_exists_index,
    forall_apply_eq_imp_iff₂]

/-- What holds of some overlapped zone and its overlap. -/
theorem exists_mem_overlaps {Q : Int × Zone → Prop} : (∃ oz ∈ overlaps p g spans, Q oz) ↔
    ∃ lz ∈ spans, 0 < overlap p g lz.1 lz.2.zEnd ∧ Q (overlap p g lz.1 lz.2.zEnd, lz.2) := by
  have h := not_congr (forall_mem_overlaps (p := p) (g := g) (spans := spans) (Q := fun oz => ¬ Q oz))
  push Not at h
  exact h

theorem overlaps_eq_nil_iff : overlaps p g spans = [] ↔ ∀ lz ∈ spans, overlap p g lz.1 lz.2.zEnd ≤ 0 := by
  simp only [List.eq_nil_iff_forall_not_mem, forall_mem_overlaps (Q := fun _ => False)]
  simp only [imp_false, not_lt]

/-- A zone that the segment does not overlap adds nothing to a sum weighted by the overlaps. -/
theorem sum_overlaps (f : Zone → Int) : ((overlaps p g spans).map fun oz => oz.1 * f oz.2).sum =
    (spans.map fun lz => overlap p g lz.1 lz.2.zEnd * f lz.2).sum := by
  induction spans with
  | nil => rfl
  | cons lz rest ih =>
    unfold overlaps at *
    rw [List.map_cons, List.map_cons, List.sum_cons, ← ih]
    rcases (overlap_nonneg p g lz.1 lz.2.zEnd).lt_or_eq with hpos | hzero
    · rw [List.filter_cons_of_pos (by simpa using hpos), List.map_cons, List.sum_cons]
    · rw [List.filter_cons_of_neg (by simp [← hzero]), ← hzero, zero_mul, zero_add]

end

/-! ### Increment and peak (R141, R142) -/

theorem increment_overlaps (tBase : Nat) (length p : Int) (g : Segment) (spans : List (Int × Zone)) :
    increment tBase length (overlaps p g spans) =
      ((spans.map fun lz => overlap p g lz.1 lz.2.zEnd * (lz.2.rate tBase : Int)).sum / length).toNat := by
  unfold increment
  rw [← List.sum_eq_foldl, sum_overlaps fun z => (z.excess tBase : Int)]
  simp only [Zone.excess_eq_rate]

section
variable (peak : Nat) (ovs : List (Int × Zone))

/-- A bound holds for the peak after a tick if it holds for the peak before and every temperature that counts. -/
theorem peakAfter_le_iff (b : Nat) : peakAfter peak ovs ≤ b ↔
    peak ≤ b ∧ ∀ oz ∈ ovs, oz.2.freshness ≠ .dead → oz.2.temp ≤ b := by
  unfold peakAfter
  induction ovs generalizing peak with
  | nil => simp
  | cons oz rest ih =>
    rw [List.foldl_cons, ih, List.forall_mem_cons, ← and_assoc]
    split_ifs with hdead <;> simp [hdead]

theorem le_peakAfter : peak ≤ peakAfter peak ovs := ((peakAfter_le_iff peak ovs _).mp le_rfl).1

theorem temp_le_peakAfter : ∀ oz ∈ ovs, oz.2.freshness ≠ .dead → oz.2.temp ≤ peakAfter peak ovs :=
  ((peakAfter_le_iff peak ovs _).mp le_rfl).2

/-- The peak after a tick is the peak before or a temperature that counts. -/
theorem peakAfter_attained : peakAfter peak ovs = peak ∨
    ∃ oz ∈ ovs, oz.2.freshness ≠ .dead ∧ oz.2.temp = peakAfter peak ovs := by
  by_contra! h
  obtain ⟨hpeak, htemps⟩ := h
  have hlt : peak < peakAfter peak ovs := lt_of_le_of_ne (le_peakAfter peak ovs) hpeak.symm
  have hle : peakAfter peak ovs ≤ peakAfter peak ovs - 1 := (peakAfter_le_iff peak ovs _).mpr
    ⟨by omega, fun oz hoz hfresh =>
      Nat.le_sub_one_of_lt (lt_of_le_of_ne (temp_le_peakAfter peak ovs oz hoz hfresh) (htemps oz hoz hfresh))⟩
  omega

end

/-! ### A segment at a tick (R140 to R142) -/

section
variable {p : Int} {tBase : Nat} {spans : List (Int × Zone)} {g : Segment}

theorem Segment.dosed_of_apart (h : ∀ lz ∈ spans, overlap p g lz.1 lz.2.zEnd ≤ 0) : g.dosed p tBase spans = g :=
  if_pos (overlaps_eq_nil_iff.mpr h)

theorem Segment.dosed_of_overlap (h : ∃ lz ∈ spans, 0 < overlap p g lz.1 lz.2.zEnd) : g.dosed p tBase spans =
    { g with
      dose := min 4294967295 (g.dose + increment tBase g.length (overlaps p g spans))
      peak := peakAfter g.peak (overlaps p g spans)
      cureUnknown := g.cureUnknown || (overlaps p g spans).any fun oz => oz.2.freshness == .dead } := by
  obtain ⟨lz, hlz, hpos⟩ := h
  exact if_neg fun hnil => hpos.not_ge (overlaps_eq_nil_iff.mp hnil lz hlz)

end

/-! ### The tick (R137) -/

/-- The state after a dose tick. -/
def State.doseTick (s : State) : State := s.ageZones.addDoses.evalLines

theorem exec_doseTick_running {s : State} (h : s.inReset = false) : exec .doseTick s = .next s.doseTick :=
  congrArg Host.Outcome.next (if_neg (by simp [h]))

section
variable (s : State)

theorem State.oven_ageZones : s.ageZones.oven = { s.oven with zones := s.oven.zones.map Zone.older } := by
  simp [State.ageZones]

theorem State.oven_doseTick : s.doseTick.oven = { s.oven with zones := s.oven.zones.map Zone.older } := by
  simp [State.doseTick, State.addDoses, State.oven_ageZones]

/-- The segments take their doses from the zones as aged (R137). -/
theorem State.queue_doseTick : s.doseTick.web.queue =
    s.web.queue.map fun g => g.dosed s.pos.p s.cure.tBase s.doseTick.oven.spans := by
  rw [State.oven_doseTick, ← State.oven_ageZones]
  simp [State.doseTick, State.addDoses, State.ageZones]

theorem State.doseTick_frame : s.doseTick = { s with
    oven := { s.oven with zones := s.doseTick.oven.zones }
    web := { s.web with queue := s.doseTick.web.queue }
    ports := s.doseTick.ports } := by
  unfold State.doseTick State.addDoses State.ageZones
  generalize s.oven.zones.any Zone.turnsStale = stale, s.oven.zones.any Zone.turnsDead = dead
  cases stale <;> cases dead <;> unfold State.evalLines State.latchIf State.latch State.mapPorts <;> rfl

theorem State.port_doseTick (n : PortId) : (s.doseTick.port n).sameSerial (s.port n)
    ∧ (s.doseTick.port n).enabled = (s.port n).enabled := by
  have hlatches : Latches (s.withOven { s.oven with zones := s.oven.zones.map Zone.older }) s.ageZones.addDoses :=
    ((Latches.latchIf _ _ _).trans (Latches.latchIf _ _ _)).trans (Latches.of_ports rfl)
  obtain ⟨-, henabled, -, hserial⟩ := hlatches.keeps n
  rw [State.doseTick, State.port_evalLines]
  exact ⟨hserial, henabled⟩

theorem State.latched_doseTick (n : PortId) (e : EventKind) : hasKind (s.doseTick.port n).latched e ↔
    hasKind (s.port n).latched e
      ∨ (e = .zoneStale ∧ (s.port n).role.sees e ∧ ∃ z ∈ s.oven.zones, z.freshness = .fresh ∧ 4 ≤ z.age)
      ∨ (e = .zoneDead ∧ (s.port n).role.sees e ∧ ∃ z ∈ s.oven.zones, z.freshness ≠ .dead ∧ 29 ≤ z.age) := by
  have hrole : ∀ (c : Bool) (v : EventKind) (u : State), ((u.latchIf c v).port n).role = (u.port n).role :=
    fun c v u => ((Latches.latchIf c v u).keeps n).1
  rw [State.doseTick, State.port_evalLines, State.addDoses, State.port_withQueue, State.ageZones]
  simp only [State.hasKind_latchIf, hrole, State.port_withOven, List.any_eq_true, Zone.turnsStale_iff, Zone.turnsDead_iff]
  exact or_assoc.trans (or_congr_right (or_congr (and_comm.trans and_assoc) (and_comm.trans and_assoc)))

end

end Sys2Proof.Machine

/-! ### The statement -/

open Sys2Proof Sys2Proof.Machine

/-- Settles O20: the tick maps the zones to older ones and the queue to dosed segments, whose dose is a sum and whose peak
is a maximum over the overlapped zones; it latches what its two tests of the zones raise. -/
theorem doseTickAgesZonesAndAddsDose : Obligations.DoseTickAgesZonesAndAddsDose := by
  unfold Obligations.DoseTickAgesZonesAndAddsDose
  intro s hrun
  refine ⟨s.doseTick, exec_doseTick_running hrun, s.doseTick_frame, by rw [State.oven_doseTick]; simp,
    by rw [State.queue_doseTick]; simp, ?_, ?_, ?_⟩
  · intro i z hz
    refine ⟨z.older.age, rfl, z.older.freshness, ?_, agedFreshness_dead_iff .., agedFreshness_fresh_iff ..⟩
    rw [State.oven_doseTick, List.getElem?_map, hz]
    rfl
  · intro i g hg
    have hlookup : s.doseTick.web.queue[i]? = some (g.dosed s.pos.p s.cure.tBase s.doseTick.oven.spans) := by
      rw [State.queue_doseTick, List.getElem?_map, hg]
      rfl
    refine ⟨_, hlookup, Segment.dosed_of_apart, fun hoverlap => ?_⟩
    rw [Segment.dosed_of_overlap hoverlap]
    refine ⟨rfl, by rw [increment_overlaps], le_peakAfter .., 
      forall_mem_overlaps (Q := fun oz => oz.2.freshness ≠ .dead → oz.2.temp ≤ _).mp (temp_le_peakAfter _ _),
      (peakAfter_attained ..).imp_right exists_mem_overlaps.mp, ?_⟩
    rw [Bool.or_eq_true, List.any_eq_true, exists_mem_overlaps]
    simp only [beq_iff_eq]
  · intro n
    obtain ⟨hserial, henabled⟩ := s.port_doseTick n
    exact ⟨hserial, henabled, by rw [State.latched_doseTick]; simp, by rw [State.latched_doseTick]; simp⟩

end

section
/-! PROOFS. ZONE.SAMPLE: the 15 bits of a field word, the checks, what one value does to its zone, and the statement. -/

namespace Sys2Proof.Machine

/-! ### The field word's own part (R133, R170) -/

theorem lowBits_lt (w : Word) : lowBits w < 32768 := Nat.mod_lt _ (by decide)

theorem value_closeField_mod (run : List (Nat × Nat)) (i : Nat) (w : Word) :
    (closeField run i w).value % 32768 = (closeField run i w).own := by
  unfold Field.value closeField
  dsimp only
  rw [List.foldl_append, List.foldl_cons, List.foldl_nil, Nat.mul_add_mod', Nat.mod_eq_of_lt (lowBits_lt w)]

/-- The field word carries the low 15 bits of its field's value. -/
theorem own_of_mem_fields {payload : List Word} {f : Field} (h : f ∈ fields payload) : f.value % 32768 = f.own := by
  have hdecoded : ∀ (ws : List Word) (i : Nat) (run : List (Nat × Nat)), ∀ f ∈ decodeFrom i run ws,
      f.value % 32768 = f.own := by
    intro ws
    induction ws with
    | nil => simp [decodeFrom]
    | cons w ws ih =>
      intro i run
      unfold decodeFrom
      split
      · exact ih _ _
      · exact List.forall_mem_cons.mpr ⟨value_closeField_mod run i w, ih _ _⟩
  exact hdecoded payload 0 [] f h

theorem fields_map_own (payload : List Word) :
    (fields payload).map Field.own = (fields payload).map fun f => f.value % 32768 :=
  List.map_congr_left fun _ hf => (own_of_mem_fields hf).symm

/-! ### One value and its zone (R134) -/

theorem newlyDead_iff (v : Nat) (z : Zone) : newlyDead v z = true ↔ v = 32766 ∧ z.freshness ≠ .dead := by
  simp [newlyDead]

theorem flagWord_sampleClamped (v : Nat) : flagWord (sampleClamped v) = words1 (if 4000 < v ∧ v < 32766 then 1 else 0) := by
  simp [flagWord_eq, sampleClamped]

/-- What a value does to its zone, by the table of values. -/
theorem Zone.sample_of_table {act : Nat → Zone → Zone} (hkeep : ∀ z, act 32767 z = z)
    (hkill : ∀ z, act 32766 z = { z with freshness := .dead, age := 255 })
    (hstore : ∀ v z, v < 32766 → act v z = { z with temp := min 4000 v, age := 0, freshness := .fresh })
    {v : Nat} (hv : v < 32768) (z : Zone) : z.sample v = act v z := by
  unfold Zone.sample
  split_ifs with hlast hdead
  · rw [hlast, hkeep]
  · rw [hdead, hkill]
  · rw [hstore v z (by omega)]

section
variable {s : State} {n : PortId} {tag : Byte} {payload : List Word}

/-! ### The checks (R133) -/

theorem zoneSampleParse_noZone (h : s.oven.zones = []) : zoneSampleParse payload s = .error (refuse .state 0) := if_pos h

theorem zoneSampleParse_tooFew (h : s.oven.zones ≠ []) (hlen : (fields payload).length < s.oven.zones.length) :
    zoneSampleParse payload s = .error (tooFew payload) :=
  (if_neg h).trans (if_pos hlen)

theorem zoneSampleParse_beyond {f : Field} (h : s.oven.zones ≠ [])
    (hf : (fields payload)[s.oven.zones.length]? = some f) :
    zoneSampleParse payload s = .error (refuse .range f.ownIndex) := by
  obtain ⟨hlen, -⟩ := List.getElem?_eq_some_iff.mp hf
  unfold zoneSampleParse
  rw [if_neg h, if_neg hlen.not_gt, hf]

theorem zoneSampleParse_ok (h : s.oven.zones ≠ []) (hlen : (fields payload).length = s.oven.zones.length) :
    zoneSampleParse payload s = .ok ((fields payload).map fun f => f.value % 32768) := by
  unfold zoneSampleParse
  rw [if_neg h, if_neg hlen.not_lt, List.getElem?_eq_none hlen.le, fields_map_own]

/-! ### ZONE.SAMPLE as a command -/

theorem takeZoneSample_error (n : PortId) {e : Answer} (h : zoneSampleParse payload s = .error e) :
    takeZoneSample n payload s = (s, e) := by
  simp [takeZoneSample, h]

theorem takeZoneSample_ok (n : PortId) {vs : List Nat} (h : zoneSampleParse payload s = .ok vs) :
    takeZoneSample n payload s = (s.sampleAll vs, accept (sampleWords vs s.oven.zones)) := by
  simp [takeZoneSample, h]

theorem exec_zoneSample_error {e : Answer} (hears : s.hears n .oven payload) (h : zoneSampleParse payload s = .error e) :
    exec (.zoneSample n tag payload) s = .next (s.answered n 0x62 tag payload e.code e.index e.words) := by
  obtain ⟨hrun, hrole, hlen⟩ := hears
  have hparse : zoneSampleParse payload (s.receiveFrame n 0x62 tag payload) = .error e := h
  exact exec_unchanged (k := .zoneSample) ⟨hrun, hlen⟩ (by rw [hrole]; rfl) (takeZoneSample_error n hparse)

theorem exec_zoneSample_ok {vs : List Nat} (hears : s.hears n .oven payload) (h : zoneSampleParse payload s = .ok vs) :
    exec (.zoneSample n tag payload) s =
      .next ((s.withOven { s.oven with zones := sampleZones vs s.oven.zones }).answeredLatching n 0x62 tag payload
        ((vs.zip s.oven.zones).any fun vz => newlyDead vz.1 vz.2) .zoneDead (accept (sampleWords vs s.oven.zones))) := by
  obtain ⟨hrun, hrole, hlen⟩ := hears
  have hparse : zoneSampleParse payload (s.receiveFrame n 0x62 tag payload) = .ok vs := h
  exact exec_latching (k := .zoneSample) ⟨hrun, hlen⟩ (by rw [hrole]; rfl) (takeZoneSample_ok n hparse)

end

end Sys2Proof.Machine

/-! ### The statement -/

open Sys2Proof Sys2Proof.Machine

/-- Settles O48: an accepted sample is an answer that may latch ZONE_DEAD to the state with every zone sampled by its
value, which is below 32,768; a refused one is answered by the first check of R133 that fails. -/
theorem zoneSampleActsZoneByZone : Obligations.ZoneSampleActsZoneByZone := by
  unfold Obligations.ZoneSampleActsZoneByZone
  refine ⟨?_, fun s n tag payload hears => ⟨fun hnone => exec_zoneSample_error hears (zoneSampleParse_noZone hnone),
    fun hzones => ⟨fun hfew => exec_zoneSample_error hears (zoneSampleParse_tooFew hzones hfew),
      fun f hf => exec_zoneSample_error hears (zoneSampleParse_beyond hzones hf)⟩⟩⟩
  rintro s a n tag payload act pairs hears hzones hlen hkeep hkill hstore hpairs rfl
  have hexec := exec_zoneSample_ok (tag := tag) hears (zoneSampleParse_ok hzones hlen)
  unfold sampleZones sampleWords at hexec
  rw [← hpairs] at hexec
  have hact : ∀ vz ∈ pairs, vz.2.sample vz.1 = act vz.1 vz.2 := by
    intro vz hvz
    obtain ⟨f, -, hf⟩ := List.mem_map.mp (List.of_mem_zip (hpairs ▸ hvz)).1
    exact Zone.sample_of_table hkeep hkill hstore (hf ▸ Nat.mod_lt _ (by decide)) vz.2
  have hwords : ∀ vz ∈ pairs, words1 (vz.2.sample vz.1).freshness.toCode ++ words1 (vz.2.sample vz.1).temp
      ++ flagWord (sampleClamped vz.1) = words1 (act vz.1 vz.2).freshness.toCode ++ words1 (act vz.1 vz.2).temp
      ++ words1 (if 4000 < vz.1 ∧ vz.1 < 32766 then 1 else 0) := by
    intro vz hvz
    rw [hact vz hvz, flagWord_sampleClamped]
  rw [List.map_congr_left hact, List.flatMap_congr hwords] at hexec
  refine ⟨_, hexec, State.answeredLatching_eq .., State.answeredLatching_linesFollow _ _ _ _ _ _ _ _ hears.1,
    fun m => ⟨State.port_answeredLatching .., fun v => ?_⟩⟩
  simp only [State.latched_answeredLatching, List.any_eq_true, newlyDead_iff]
  exact or_congr_right (and_comm.trans and_assoc)

end

section
/-! PROOFS. ZONE.PUT and CURE.PUT: a payload of so many fields and their ranges, the bounds of the zones, the checks of
both requests in order, and the statement. -/

namespace Sys2Proof.Machine

/-! ### Payloads of exactly n fields, each in its range (R173) -/

section
variable {payload : List Word} {n : Nat} {f : Field} {fs : List Field} {ranges : List (Nat × Nat)}

theorem exactly_tooFew (h : (fields payload).length < n) : exactly n payload = .error (tooFew payload) := if_pos h

theorem exactly_beyond (h : (fields payload)[n]? = some f) : exactly n payload = .error (naming f) := by
  obtain ⟨hlen, -⟩ := List.getElem?_eq_some_iff.mp h
  unfold exactly
  rw [if_neg hlen.not_gt, h]

theorem exactly_ok (h : (fields payload).length = n) : exactly n payload = .ok (fields payload) := by
  unfold exactly
  rw [if_neg h.not_lt, List.getElem?_eq_none h.le]

theorem firstOutside_cons (r : Nat × Nat) : firstOutside (r :: ranges) (f :: fs) =
    if f.value < r.1 ∨ r.2 < f.value then some (naming f) else firstOutside ranges fs := by
  unfold firstOutside
  rw [List.zip_cons_cons]
  split_ifs with h
  · rw [List.find?_cons_of_pos (by simpa using h), Option.map_some]
  · rw [List.find?_cons_of_neg (by simpa using h)]

/-- The first field out of its range is the one that the refusal names. -/
theorem firstOutside_of_first (h : firstOutOfRange ranges fs f) : firstOutside ranges fs = some (naming f) := by
  obtain ⟨i, r, hf, hr, hout, hbefore⟩ := h
  induction i generalizing fs ranges with
  | zero =>
    obtain ⟨fs, rfl⟩ := List.head?_eq_some_iff.mp (List.head?_eq_getElem?.trans hf)
    obtain ⟨ranges, rfl⟩ := List.head?_eq_some_iff.mp (List.head?_eq_getElem?.trans hr)
    rw [firstOutside_cons, if_pos hout]
  | succ i ih =>
    cases fs with
    | nil => cases hf
    | cons g fs =>
      cases ranges with
      | nil => cases hr
      | cons b ranges =>
        obtain ⟨hlow, hhigh⟩ := hbefore 0 g b rfl rfl
        rw [firstOutside_cons, if_neg (by omega)]
        exact ih hf hr fun j g b hg hb => hbefore (j + 1) g b hg hb

/-- With one upper bound for all, the first field outside is the first above it. -/
theorem firstOutside_replicate (high : Nat) : firstOutside (List.replicate fs.length (0, high)) fs =
    (fs.find? fun f => high < f.value).map naming := by
  induction fs with
  | nil => rfl
  | cons f fs ih =>
    rw [List.length_cons, List.replicate_succ, firstOutside_cons, ih]
    by_cases h : high < f.value
    · rw [if_pos (.inr h), List.find?_cons_of_pos (by simpa using h), Option.map_some]
    · rw [if_neg (by simpa using h), List.find?_cons_of_neg (by simpa using h)]

end

/-! ### The bounds of the zones (R130, check 4) -/

/-- The bound after the i-th, B_0 being the 0-th, is at most 12,000,000 and at least 220,000 above it. -/
def boundWide (b0 : Field) (bounds : List Field) (i : Nat) : Prop :=
  ∃ low high, (b0 :: bounds)[i]? = some low ∧ (b0 :: bounds)[i + 1]? = some high
    ∧ high.value ≤ 12000000 ∧ low.value + 220000 ≤ high.value

section
variable {b0 f x : Field} {bounds : List Field} {i : Nat}

theorem boundWide_zero : boundWide b0 (f :: bounds) 0 ↔ f.value ≤ 12000000 ∧ b0.value + 220000 ≤ f.value := by
  simp [boundWide]

theorem boundWide_succ : boundWide b0 (f :: bounds) (i + 1) ↔ boundWide f bounds i := Iff.rfl

theorem boundWide_of_gap (hi : i < bounds.length) (hhigh : ∀ b ∈ b0 :: bounds, b.value ≤ 12000000)
    (hgap : ∀ (i : Nat) (low high : Field), (b0 :: bounds)[i]? = some low → (b0 :: bounds)[i + 1]? = some high →
      low.value + 220000 ≤ high.value) : boundWide b0 bounds i := by
  have hlow : (b0 :: bounds)[i]? = some _ := List.getElem?_eq_getElem (by rw [List.length_cons]; omega)
  have hnext : (b0 :: bounds)[i + 1]? = some bounds[i] := List.getElem?_eq_getElem hi
  exact ⟨_, _, hlow, hnext, hhigh _ (List.mem_of_getElem? hnext), hgap i _ _ hlow hnext⟩

theorem badBound_cons_of_wide (h : boundWide b0 (f :: bounds) 0) :
    badBound b0.value (f :: bounds) = badBound f.value bounds := by
  obtain ⟨hhigh, hgap⟩ := boundWide_zero.mp h
  exact if_neg (by simp [hhigh, hgap])

theorem badBound_cons_of_not_wide (h : ¬ boundWide b0 (f :: bounds) 0) :
    badBound b0.value (f :: bounds) = some f := by
  rw [boundWide_zero, not_and_or, not_le, not_le] at h
  exact if_pos (by simpa using h)

theorem badBound_eq_some (hx : bounds[i]? = some x) (hbefore : ∀ j, j < i → boundWide b0 bounds j)
    (hbad : ¬ boundWide b0 bounds i) : badBound b0.value bounds = some x := by
  induction bounds generalizing b0 i with
  | nil => cases hx
  | cons f bounds ih =>
    cases i with
    | zero => exact (badBound_cons_of_not_wide hbad).trans hx
    | succ i =>
      rw [badBound_cons_of_wide (hbefore 0 i.succ_pos)]
      exact ih hx (fun j hj => boundWide_succ.mp (hbefore (j + 1) (Nat.succ_lt_succ hj)))
        fun hwide => hbad (boundWide_succ.mpr hwide)

theorem badBound_eq_none (h : ∀ i, i < bounds.length → boundWide b0 bounds i) : badBound b0.value bounds = none := by
  induction bounds generalizing b0 with
  | nil => rfl
  | cons f bounds ih =>
    rw [badBound_cons_of_wide (h 0 (Nat.succ_pos _))]
    exact ih fun i hi => boundWide_succ.mp (h (i + 1) (Nat.succ_lt_succ hi))

end

/-! ### The checks of ZONE.PUT (R130) -/

section
variable {s : State} {payload : List Word} {count b0 f : Field} {rest bounds weights : List Field}

theorem zoneFieldRefusal_b0 (h : 12000000 < b0.value) : zoneFieldRefusal b0 bounds weights = some (naming b0) := if_pos h

theorem zoneFieldRefusal_bound (h : b0.value ≤ 12000000) (hbad : badBound b0.value bounds = some f) :
    zoneFieldRefusal b0 bounds weights = some (naming f) := by
  simp [zoneFieldRefusal, h, hbad]

theorem zoneFieldRefusal_weights (h : b0.value ≤ 12000000) (hwide : badBound b0.value bounds = none) :
    zoneFieldRefusal b0 bounds weights = (weights.find? fun f => 255 < f.value).map naming := by
  simp [zoneFieldRefusal, h, hwide]

theorem zonePutParse_notSetup (h : s.web.lineState ≠ .setup) : zonePutParse payload s = .error (refuse .state 0) :=
  if_pos h

section
variable (hsetup : s.web.lineState = .setup)
include hsetup

theorem zonePutParse_noCount (h : fields payload = []) : zonePutParse payload s = .error (tooFew payload) := by
  simp [zonePutParse, hsetup, h]

section
variable (h : fields payload = count :: rest)
include h

theorem zonePutParse_count (hcount : count.value = 0 ∨ 8 < count.value) :
    zonePutParse payload s = .error (naming count) := by
  unfold zonePutParse
  rw [if_neg (not_not.mpr hsetup), h]
  dsimp only
  rw [if_pos (by simp; omega)]

variable (hlow : 1 ≤ count.value) (hhigh : count.value ≤ 8)
include hlow hhigh

theorem zonePutParse_tooFew (hfew : rest.length < 2 * count.value + 1) :
    zonePutParse payload s = .error (tooFew payload) := by
  unfold zonePutParse
  rw [if_neg (not_not.mpr hsetup), h]
  dsimp only
  rw [if_neg (by simp; omega), if_pos hfew]

theorem zonePutParse_beyond (hf : rest[2 * count.value + 1]? = some f) :
    zonePutParse payload s = .error (naming f) := by
  obtain ⟨hlen, -⟩ := List.getElem?_eq_some_iff.mp hf
  unfold zonePutParse
  rw [if_neg (not_not.mpr hsetup), h]
  dsimp only
  rw [if_neg (by simp; omega), if_neg hlen.not_gt, hf]

end

/-- The zone table that B_0, the bounds after it and the weights give, no zone sampled yet (R131). -/
def newTable (b0 : Field) (bounds weights : List Field) : ZoneTable :=
  { b0 := b0.value, zones := (bounds.zip weights).map fun bw => Zone.new bw.1.value bw.2.value }

section
variable (h : fields payload = count :: b0 :: (bounds ++ weights)) (hlow : 1 ≤ count.value) (hhigh : count.value ≤ 8)
  (hbounds : bounds.length = count.value) (hweights : weights.length = count.value)
include h hlow hhigh hbounds hweights

/-- Of a payload with as many fields as its count says, B_0, the bounds and the weights decide. -/
theorem zonePutParse_fields : zonePutParse payload s =
    (zoneFieldRefusal b0 bounds weights).elim (.ok (newTable b0 bounds weights)) .error := by
  have hlen : (b0 :: (bounds ++ weights)).length = 2 * count.value + 1 := by
    rw [List.length_cons, List.length_append]
    omega
  unfold zonePutParse
  rw [if_neg (not_not.mpr hsetup), h]
  dsimp only
  rw [if_neg (by simp; omega), if_neg hlen.not_lt, List.getElem?_eq_none hlen.le]
  dsimp only
  rw [List.take_left' hbounds, List.drop_left' hbounds]
  cases zoneFieldRefusal b0 bounds weights <;> rfl

end

end

/-! ### The effect of ZONE.PUT (R131) -/

theorem length_newTable (h : bounds.length = weights.length) :
    (newTable b0 bounds weights).zones.length = bounds.length := by
  simp [newTable, h]

/-- The oven exit of a new table is its last bound. -/
theorem exit_newTable (h : bounds.length = weights.length) :
    (newTable b0 bounds weights).exit.getD 0 = (((bounds.getLast?).map Field.value).getD 0 : Nat) := by
  have hends : (newTable b0 bounds weights).zones.map Zone.zEnd = bounds.map fun f => (f.value : Int) := by
    conv_rhs => rw [← List.map_fst_zip h.le]
    simp [newTable, Zone.new, Function.comp_def]
  unfold ZoneTable.exit
  rw [← List.getLast?_map, hends, List.getLast?_map]
  cases bounds.getLast? <;> rfl

/-! ### ZONE.PUT as a command -/

section
variable {n : PortId} {tag : Byte}

theorem takeZonePut_error (n : PortId) {e : Answer} (h : zonePutParse payload s = .error e) :
    takeZonePut n payload s = (s, e) := by
  simp [takeZonePut, h]

theorem takeZonePut_ok (n : PortId) {t : ZoneTable} (h : zonePutParse payload s = .ok t) :
    takeZonePut n payload s =
      (s.withOven t, accept (words1 t.zones.length ++ words2 t.b0 ++ words2 (t.exit.getD 0))) := by
  simp [takeZonePut, h]

theorem exec_zonePut_error {e : Answer} (hears : s.hears n .line payload) (h : zonePutParse payload s = .error e) :
    exec (.zonePut n tag payload) s = .next (s.answered n 0x60 tag payload e.code e.index e.words) := by
  obtain ⟨hrun, hrole, hlen⟩ := hears
  have hparse : zonePutParse payload (s.receiveFrame n 0x60 tag payload) = .error e := h
  exact exec_unchanged (k := .zonePut) ⟨hrun, hlen⟩ (by rw [hrole]; rfl) (takeZonePut_error n hparse)

theorem exec_zonePut_ok {t : ZoneTable} (hears : s.hears n .line payload) (h : zonePutParse payload s = .ok t) :
    exec (.zonePut n tag payload) s = .next ((s.withOven t).answered n 0x60 tag payload .ok 0
      (words1 t.zones.length ++ words2 t.b0 ++ words2 (t.exit.getD 0))) := by
  obtain ⟨hrun, hrole, hlen⟩ := hears
  have hparse : zonePutParse payload (s.receiveFrame n 0x60 tag payload) = .ok t := h
  exact exec_changed (k := .zonePut) (t := s.withOven t) ⟨hrun, hlen⟩ (by rw [hrole]; rfl) (takeZonePut_ok n hparse)

end

end

/-! ### CURE.PUT (R135, R136) -/

section
variable {s : State} {n : PortId} {tag : Byte} {payload : List Word} {b t l u x : Field}

theorem curePutParse_tooFew (hfew : (fields payload).length < 4) : curePutParse payload = .error (tooFew payload) := by
  simp [curePutParse, exactly_tooFew hfew]

theorem curePutParse_beyond (hx : (fields payload)[4]? = some x) : curePutParse payload = .error (naming x) := by
  simp [curePutParse, exactly_beyond hx]

theorem curePutParse_outside (hlen : (fields payload).length = 4) (hx : firstOutOfRange cureRanges (fields payload) x) :
    curePutParse payload = .error (naming x) := by
  simp [curePutParse, exactly_ok hlen, firstOutside_of_first hx]

section
variable (hfields : fields payload = [b, t, l, u]) (hb : b.value ≤ 3000) (ht : t.value ≤ 4000)
  (hl : l.value ≤ 4294967295) (hu : u.value ≤ 4294967295)
include hfields hb ht hl hu

/-- Of four fields in their ranges the two doses decide. -/
theorem curePutParse_fields : curePutParse payload = if u.value < l.value then .error (naming l) else
    .ok { tBase := b.value, tScorch := t.value, doseMin := l.value, doseMax := u.value } := by
  have hinside : firstOutside cureRanges [b, t, l, u] = none := by
    simp only [cureRanges, firstOutside_cons, Nat.not_lt_zero, false_or]
    rw [if_neg hb.not_gt, if_neg ht.not_gt, if_neg hl.not_gt, if_neg hu.not_gt]
    rfl
  unfold curePutParse
  rw [exactly_ok (by rw [hfields]; rfl), hfields]
  dsimp only
  rw [hinside]
  rfl

end

theorem takeCurePut_error (n : PortId) {e : Answer} (h : curePutParse payload = .error e) :
    takeCurePut n payload s = (s, e) := by
  simp [takeCurePut, h]

theorem takeCurePut_ok (n : PortId) {c : CureProfile} (h : curePutParse payload = .ok c) :
    takeCurePut n payload s = (s.withCure c, accept c.words) := by
  simp [takeCurePut, h]

section
variable (hears : s.hearsAny payload) (hrole : (s.port n).role = .line ∨ (s.port n).role = .oven)
include hears hrole

theorem exec_curePut_error {e : Answer} (h : curePutParse payload = .error e) :
    exec (.curePut n tag payload) s = .next (s.answered n 0x61 tag payload e.code e.index e.words) :=
  exec_unchanged (k := .curePut) hears (by simpa [permits] using hrole) (takeCurePut_error n h)

theorem exec_curePut_ok {c : CureProfile} (h : curePutParse payload = .ok c) :
    exec (.curePut n tag payload) s = .next ((s.withCure c).answered n 0x61 tag payload .ok 0 c.words) :=
  exec_changed (k := .curePut) (t := s.withCure c) hears (by simpa [permits] using hrole) (takeCurePut_ok n h)

end

end

end Sys2Proof.Machine

/-! ### The statement -/

open Sys2Proof Sys2Proof.Machine

/-- Settles O47: each parse makes its request's checks in their order; the table and the profile that pass them are
stored whole. -/
theorem ovenPutsReplaceTableAndProfile : Obligations.OvenPutsReplaceTableAndProfile := by
  unfold Obligations.OvenPutsReplaceTableAndProfile
  refine ⟨⟨?_, ?_⟩, ?_, ?_⟩
  · intro s n tag payload count b0 bounds weights hears hsetup h hbounds hweights hlow hhigh htop hgap hmax
    have hwide := badBound_eq_none fun i hi => boundWide_of_gap hi htop hgap
    have hlight : (weights.find? fun f => 255 < f.value) = none := by simpa using hmax
    have hpass : zoneFieldRefusal b0 bounds weights = none := by
      rw [zoneFieldRefusal_weights (htop b0 List.mem_cons_self) hwide, hlight, Option.map_none]
    have hparse := zonePutParse_fields hsetup h hlow hhigh hbounds hweights
    rw [hpass] at hparse
    rw [exec_zonePut_ok hears hparse, length_newTable (hbounds.trans hweights.symm),
      exit_newTable (hbounds.trans hweights.symm), hbounds]
    rfl
  · intro s n tag payload b t l h hears hrole hfields hb ht hl hh
    have hparse := curePutParse_fields hfields hb ht hl hh
    refine ⟨fun hle => ?_, fun hlt => ?_⟩
    · rw [if_neg hle.not_gt] at hparse
      exact exec_curePut_ok hears hrole hparse
    · rw [if_pos hlt] at hparse
      exact exec_curePut_error hears hrole hparse
  · intro s n tag payload refused hears hrefused
    have hrefuse : ∀ c i, zonePutParse payload s = .error (refuse c i) → refused c i := fun c i hparse =>
      (hrefused c i).mpr (exec_zonePut_error hears hparse)
    refine ⟨fun hline => hrefuse _ _ (zonePutParse_notSetup hline), fun hsetup =>
      ⟨fun h => hrefuse _ _ (zonePutParse_noCount hsetup h),
        fun count rest h hcount => hrefuse _ _ (zonePutParse_count hsetup h hcount),
        fun count rest h hlow hhigh => ⟨fun hfew => hrefuse _ _ (zonePutParse_tooFew hsetup h hlow hhigh hfew),
          fun x hx => hrefuse _ _ (zonePutParse_beyond hsetup h hlow hhigh hx)⟩, ?_⟩⟩
    intro count b0 bounds weights h hlow hhigh hbounds hweights wide hwide
    obtain rfl : wide = boundWide b0 bounds := funext fun i => propext (hwide i)
    have hnames : ∀ x, zoneFieldRefusal b0 bounds weights = some (naming x) → refused .range x.index := by
      intro x hx
      refine hrefuse _ _ ?_
      rw [zonePutParse_fields hsetup h hlow hhigh hbounds hweights, hx]
      rfl
    refine ⟨fun htop => hnames _ (zoneFieldRefusal_b0 htop), fun hb0 => ⟨fun i x hx hbefore hbad => ?_,
      fun hall x hx => ?_⟩⟩
    · exact hnames x (zoneFieldRefusal_bound hb0 (badBound_eq_some hx hbefore hbad))
    · have hfirst := firstOutside_of_first hx
      rw [← hweights, firstOutside_replicate] at hfirst
      exact hnames x ((zoneFieldRefusal_weights hb0 (badBound_eq_none hall)).trans hfirst)
  · intro s n tag payload refused hears hrole hrefused
    have hrefuse : ∀ i, curePutParse payload = .error (refuse .range i) → refused i := fun i hparse =>
      (hrefused i).mpr (exec_curePut_error hears hrole hparse)
    exact ⟨fun hfew => hrefuse _ (curePutParse_tooFew hfew), fun x hx => hrefuse _ (curePutParse_beyond hx),
      fun hlen x hx => hrefuse _ (curePutParse_outside hlen hx)⟩

end

section
/-! PROOFS. A leaving record's faults stand in the order of their codes, so that its grade is the first of them; what a
leaving makes of the tally, the exit report queue and the latched kinds. The two statements of spec/09. -/

namespace Sys2Proof.Machine

/-! ### The fault set of a leaving record (R150 to R152) -/

/-- The faults in the ranking of R152. -/
def Grade.ranking : List Grade :=
  [.lost, .seam, .incomplete, .overcure, .undercure, .cureUnknown, .misregister, .uninspected]

/-- The ranking is the order of the grade codes. -/
theorem Grade.ranking_pairwise : Grade.ranking.Pairwise fun f f' => f.toCode < f'.toCode := by decide

theorem Grade.pass_notMem_ranking : Grade.pass ∉ Grade.ranking := by decide

/-- The fault of code c stands in place c − 1 of the ranking. -/
theorem Grade.ranking_getElem? {f : Grade} (h : f ≠ .pass) : Grade.ranking[f.toCode - 1]? = some f := by
  cases f
  case pass => exact absurd rfl h
  all_goals rfl

/-- When a grade is among the faults of a leaving record (R150, R151). -/
def isFault (line : LineSettings) (cure : CureProfile) (way : WayOut) (g : Segment) : Grade → Prop
  | .pass => False
  | .lost => way ≠ .exit
  | .seam => way = .exit ∧ g.seam = true
  | .incomplete => way = .exit ∧ g.printed ≠ g.expected
  | .overcure => way = .exit ∧ (cure.doseMax < g.dose ∨ cure.tScorch < g.peak)
  | .undercure => way = .exit ∧ g.dose < cure.doseMin
  | .cureUnknown => way = .exit ∧ g.cureUnknown = true
  | .misregister => way = .exit ∧ ∃ e ∈ g.regs, e.outOfTol = true
  | .uninspected => way = .exit ∧ line.inspectionRequired = true
      ∧ ∃ k : ScreenId, k ≠ 0 ∧ inSet g.expected k = true ∧ ∀ e ∈ g.regs, e.screen ≠ k

theorem uninspected_iff (required : Bool) (g : Segment) :
    uninspected required g = true ↔ required = true
      ∧ ∃ k : ScreenId, k ≠ 0 ∧ inSet g.expected k = true ∧ ∀ e ∈ g.regs, e.screen ≠ k := by
  simp [uninspected, mem_allScreens, and_assoc]

section
variable (line : LineSettings) (cure : CureProfile) (way : WayOut) (g : Segment)

/-- The fault list has exactly the faults of R150 and R151. -/
theorem mem_faultsOf (f : Grade) : f ∈ faultsOf line cure way g ↔ isFault line cure way g f := by
  cases way
  case exit => cases f <;> simp [faultsOf, isFault, uninspected_iff]
  all_goals cases f <;> simp [faultsOf, isFault]

/-- A fault list leaves some faults out of the ranking, and keeps its order. -/
theorem faultsOf_sublist_ranking : (faultsOf line cure way g).Sublist Grade.ranking := by
  have hpart : ∀ (c : Prop) [Decidable c] (f : Grade), (if c then [f] else []).Sublist [f] := fun c _ f => by
    split
    · exact .refl _
    · exact List.nil_sublist _
  cases way
  case exit =>
    exact .cons _ (((((((hpart _ _).append (hpart _ _)).append (hpart _ _)).append (hpart _ _)).append
      (hpart _ _)).append (hpart _ _)).append (hpart _ _))
  all_goals exact .cons_cons _ (List.nil_sublist _)

theorem faultsOf_pairwise : (faultsOf line cure way g).Pairwise fun f f' => f.toCode < f'.toCode :=
  Grade.ranking_pairwise.sublist (faultsOf_sublist_ranking line cure way g)

theorem pass_notMem_faultsOf : Grade.pass ∉ faultsOf line cure way g :=
  (mem_faultsOf line cure way g .pass).mp

end

/-! ### The grade and the fault bits (R152, R174) -/

theorem gradeOf_eq_pass_iff {faults : List Grade} (h : .pass ∉ faults) : gradeOf faults = .pass ↔ ∀ f, f ∉ faults := by
  cases faults with
  | nil => simp [gradeOf]
  | cons a rest =>
    have ha : a ≠ .pass := fun he => h (he ▸ List.mem_cons_self)
    exact ⟨fun he => absurd he ha, fun hnone => absurd List.mem_cons_self (hnone a)⟩

/-- Of faults in the order of their codes, the grade is the one of the least code. -/
theorem gradeOf_eq_iff {faults : List Grade} (hsorted : faults.Pairwise fun f f' => f.toCode < f'.toCode) {f : Grade}
    (hf : f ≠ .pass) : gradeOf faults = f ↔ f ∈ faults ∧ ∀ f' ∈ faults, ¬ f'.toCode < f.toCode := by
  cases faults with
  | nil => simp [gradeOf, hf.symm]
  | cons a rest =>
    obtain ⟨hfirst, -⟩ := List.pairwise_cons.mp hsorted
    change a = f ↔ _
    constructor
    · rintro rfl
      exact ⟨List.mem_cons_self, List.forall_mem_cons.mpr ⟨Nat.lt_irrefl _, fun f' hf' => (hfirst f' hf').not_gt⟩⟩
    · rintro ⟨hmem, hleast⟩
      rcases List.mem_cons.mp hmem with rfl | hrest
      · rfl
      · exact absurd (hfirst f hrest) (hleast a List.mem_cons_self)

theorem getLsbD_foldl_faultBits (faults : List Grade) (b : BitVec 8) (i : Nat) :
    (faults.foldl (fun b f => b ||| BitVec.twoPow 8 (f.toCode - 1)) b).getLsbD i = true ↔
      b.getLsbD i = true ∨ ∃ f ∈ faults, f.toCode - 1 < 8 ∧ f.toCode - 1 = i := by
  induction faults generalizing b with
  | nil => simp
  | cons a rest ih => simp [ih, BitVec.getLsbD_twoPow, or_assoc]

/-- Bit c − 1 of the fault word is the fault of code c. -/
theorem getLsbD_faultBits {faults : List Grade} (h : .pass ∉ faults) {f : Grade} (hf : f ≠ .pass) :
    (faultBits faults).getLsbD (f.toCode - 1) = true ↔ f ∈ faults := by
  have hcode : f.toCode - 1 < 8 := (List.getElem?_eq_some_iff.mp (Grade.ranking_getElem? hf)).1
  unfold faultBits
  rw [getLsbD_foldl_faultBits]
  constructor
  · rintro (hzero | ⟨f', hmem, -, hbit⟩)
    · simp at hzero
    · have hf' : f' ≠ .pass := fun he => h (he ▸ hmem)
      have hsame := Grade.ranking_getElem? hf'
      rw [hbit, Grade.ranking_getElem? hf] at hsame
      exact Option.some.inj hsame ▸ hmem
  · exact fun hmem => .inr ⟨f, hmem, hcode, rfl⟩

/-! ### The tally (R153) -/

/-- A leaving adds one to its grade's count and leaves the others. -/
theorem Tally.counts_add (g : Grade) (t : Tally) : (t.add g).counts = t.counts.modify g.toCode (· + 1) := by
  cases g <;> rfl

theorem Tally.getElem?_counts_add (g : Grade) (t : Tally) (c : Nat) :
    (t.add g).counts[c]? = if c = g.toCode then t.counts[c]?.map (· + 1) else t.counts[c]? := by
  rw [Tally.counts_add, List.getElem?_modify]
  by_cases h : c = g.toCode
  · simp [h]
  · simp [h, Ne.symm h]

/-! ### What a leaving latches (R156, R157) -/

theorem Grade.isCure_iff (g : Grade) : g.isCure = true ↔ g = .overcure ∨ g = .undercure ∨ g = .cureUnknown := by
  cases g <;> simp [Grade.isCure]

theorem overflows_singleton (reports : List Report) (r : Report) : overflows reports [r] ↔ 32 ≤ reports.length := by
  simp only [overflows, List.length_singleton]
  omega

theorem State.role_offer (r : Report) (s : State) (n : PortId) : ((s.offer r).port n).role = (s.port n).role :=
  ((WebOnly.offer r s).2.keeps n).1

theorem State.hasKind_gradeRecord (way : WayOut) (g : Segment) (s : State) (n : PortId) (e : EventKind) :
    hasKind ((s.gradeRecord way g).port n).latched e ↔
      hasKind (s.port n).latched e ∨ ((s.port n).role.sees e ∧ ((e = .reportLost ∧ 32 ≤ s.reports.length)
        ∨ (e = .cureFault ∧ (gradeOf (faultsOf s.line s.cure way g)).isCure = true))) := by
  unfold State.gradeRecord
  simp only [State.hasKind_latchIf, State.role_offer, State.hasKind_offer, overflows_singleton, State.port_withRolls,
    State.withRolls_reports]
  tauto

/-- Grading a record changes the roll table, the reports and the ports alone. -/
theorem State.gradeRecord_frame (way : WayOut) (g : Segment) (s : State) :
    s.gradeRecord way g = { s with
      web := { s.web with rolls := (s.gradeRecord way g).web.rolls }
      reports := (s.gradeRecord way g).reports
      ports := (s.gradeRecord way g).ports } := by
  obtain ⟨hframe, -⟩ := WebOnly.gradeRecord way g s
  have hweb : { s.web with rolls := (s.gradeRecord way g).web.rolls } = (s.gradeRecord way g).web := by
    rw [State.gradeRecord_web]
  rw [hweb]
  exact hframe

end Sys2Proof.Machine

/-! ### The statements -/

open Sys2Proof Sys2Proof.Machine

/-- Settles O13: the fault list is the fault set in the order of the codes, so its head, if any, has the least code. -/
theorem gradeIsFirstFaultInRanking : Obligations.GradeIsFirstFaultInRanking := by
  unfold Obligations.GradeIsFirstFaultInRanking
  intro line cure way g holds hlost hseam hincomplete hovercure hundercure hunknown hmisregister huninspected r hr
  have hmem : ∀ f, f ≠ .pass → (f ∈ faultsOf line cure way g ↔ holds f) := by
    intro f hf
    rw [mem_faultsOf]
    cases f with
    | pass => exact absurd rfl hf
    | lost => exact hlost.symm
    | seam => exact hseam.symm
    | incomplete => exact hincomplete.symm
    | overcure => exact hovercure.symm
    | undercure => exact hundercure.symm
    | cureUnknown => exact hunknown.symm
    | misregister => exact hmisregister.symm
    | uninspected => exact huninspected.symm
  have hpass := pass_notMem_faultsOf line cure way g
  have hne : ∀ f ∈ faultsOf line cure way g, f ≠ .pass := fun f hf he => hpass (he ▸ hf)
  rw [hr]
  refine ⟨(gradeOf_eq_pass_iff hpass).trans ⟨fun hnone f hf h => hnone f ((hmem f hf).mpr h), fun hnone f h =>
    hnone f (hne f h) ((hmem f (hne f h)).mp h)⟩, fun f hf => ?_, fun f hf => ?_⟩
  · refine (gradeOf_eq_iff (faultsOf_pairwise line cure way g) hf).trans (and_congr (hmem f hf) ?_)
    exact ⟨fun hleast f' hf' hlt h => hleast f' ((hmem f' hf').mpr h) hlt, fun hleast f' h hlt =>
      hleast f' (hne f' h) hlt ((hmem f' (hne f' h)).mp h)⟩
  · exact (getLsbD_faultBits hpass hf).trans (hmem f hf)

/-- Settles O14: the tally, the offer and the latch each follow from the record's grade and the queue's room. -/
theorem leavingRecordIsTalliedAndReported : Obligations.LeavingRecordIsTalliedAndReported := by
  unfold Obligations.LeavingRecordIsTalliedAndReported
  intro way g s t r ht hr
  subst ht hr
  refine ⟨State.gradeRecord_frame way g s, ?_, fun i x hx => ?_, State.gradeRecord_reports way g s, fun n => ?_⟩
  · rw [State.gradeRecord_web, List.length_map]
  · refine ⟨_, by rw [State.gradeRecord_web, List.getElem?_map, hx]; rfl, fun hother => if_neg hother, fun hroll => ?_⟩
    rw [if_pos hroll]
    exact ⟨rfl, rfl, rfl, rfl, rfl, rfl, Tally.add_sum _ _, Tally.getElem?_counts_add _ _⟩
  · obtain ⟨-, henabled, -, hserial⟩ := (WebOnly.gradeRecord way g s).2.keeps n
    refine ⟨hserial, henabled, fun e => ?_⟩
    rw [State.hasKind_gradeRecord, Grade.isCure_iff]
    rfl

end

section
/-! PROOFS. How a run of widen words and its field word assemble into one field (R170 to R172), and the statement. -/

namespace Sys2Proof.Machine

/-! ### Field words and widen words -/

/-- A payload word is a widen word exactly when it is 0x8000 or above. -/
theorem widen_iff (w : Word) : w.msb = true ↔ 32768 ≤ w.toNat := by
  rw [BitVec.msb_eq_decide, decide_eq_true_iff]

theorem lowBits_of_field {w : Word} (h : w.toNat < 32768) : lowBits w = w.toNat := Nat.mod_eq_of_lt h

theorem lowBits_of_widen {w : Word} (h : 32768 ≤ w.toNat) : lowBits w = w.toNat - 32768 := by
  have := w.isLt
  unfold lowBits
  omega

section
variable (i : Nat) (run : List (Nat × Nat))

theorem decodeFrom_widen {w : Word} (h : 32768 ≤ w.toNat) (ws : List Word) :
    decodeFrom i run (w :: ws) = decodeFrom (i + 1) (run ++ [(i, lowBits w)]) ws :=
  if_pos ((widen_iff w).mpr h)

theorem decodeFrom_field {w : Word} (h : w.toNat < 32768) (ws : List Word) :
    decodeFrom i run (w :: ws) = closeField run i w :: decodeFrom (i + 1) [] ws :=
  if_neg fun hw => Nat.not_le.mpr h ((widen_iff w).mp hw)

/-! ### Decoding word by word (R170, R171) -/

/-- Each field word closes one field; widen words close none. -/
theorem length_decodeFrom (ws : List Word) :
    (decodeFrom i run ws).length = ws.countP fun x => x.toNat < 32768 := by
  induction ws generalizing i run with
  | nil => rfl
  | cons w ws ih =>
    by_cases h : w.toNat < 32768
    · rw [decodeFrom_field i run h, List.length_cons, ih, List.countP_cons_of_pos (by simpa using h)]
    · rw [decodeFrom_widen i run (Nat.not_lt.mp h), ih, List.countP_cons_of_neg (by simpa using h)]

/-- A field word leaves no widen word standing, so that decoding starts afresh behind it. -/
theorem decodeFrom_past_field {b : Word} (h : b.toNat < 32768) (init more : List Word) :
    decodeFrom i run ((init ++ [b]) ++ more) =
      decodeFrom i run (init ++ [b]) ++ decodeFrom (i + (init ++ [b]).length) [] more := by
  induction init generalizing i run with
  | nil => simp [decodeFrom_field i run h, decodeFrom]
  | cons w ws ih =>
    have hpast := ih (i + 1)
    rw [Nat.add_right_comm, Nat.add_assoc] at hpast
    by_cases hw : w.toNat < 32768
    · simp only [List.cons_append, decodeFrom_field i run hw]
      exact congrArg _ (hpast [])
    · simp only [List.cons_append, decodeFrom_widen i run (Nat.not_lt.mp hw)]
      exact hpast _

/-- The widen words of a run that starts at word index i, each with its index and its 15 bits. -/
def widensFrom (i : Nat) (ws : List Word) : List (Nat × Nat) := (ws.zipIdx i).map fun wj => (wj.2, lowBits wj.1)

theorem widensFrom_cons (a : Word) (ws : List Word) :
    widensFrom i (a :: ws) = (i, lowBits a) :: widensFrom (i + 1) ws := rfl

theorem widensFrom_append (ws vs : List Word) :
    widensFrom i (ws ++ vs) = widensFrom i ws ++ widensFrom (i + ws.length) vs := by
  unfold widensFrom
  rw [List.zipIdx_append, List.map_append, Nat.add_comm]

/-- Widen words wait for the field word that they stand before. -/
theorem decodeFrom_widens {ws : List Word} (h : ∀ x ∈ ws, 32768 ≤ x.toNat) (more : List Word) :
    decodeFrom i run (ws ++ more) = decodeFrom (i + ws.length) (run ++ widensFrom i ws) more := by
  induction ws generalizing i run with
  | nil => simp [widensFrom]
  | cons w ws ih =>
    obtain ⟨hw, hws⟩ := List.forall_mem_cons.mp h
    rw [List.cons_append, decodeFrom_widen i run hw, ih _ _ hws, widensFrom_cons, List.append_assoc, List.length_cons,
      Nat.add_right_comm, Nat.add_assoc]
    rfl

/-- A field word right behind a run of widen words takes the whole run into its field. -/
theorem fields_assembled {before ws : List Word} {w : Word}
    (hbefore : before = [] ∨ ∃ b ∈ before.getLast?, b.toNat < 32768) (hws : ∀ x ∈ ws, 32768 ≤ x.toNat)
    (hw : w.toNat < 32768) (after : List Word) :
    ∃ rest, fields (before ++ ws ++ w :: after) =
      fields before ++ closeField (widensFrom before.length ws) (before.length + ws.length) w :: rest := by
  have hfield : decodeFrom before.length [] (ws ++ w :: after) =
      closeField (widensFrom before.length ws) (before.length + ws.length) w
        :: decodeFrom (before.length + ws.length + 1) [] after := by
    rw [decodeFrom_widens _ _ hws, decodeFrom_field _ _ hw, List.nil_append]
  refine ⟨_, Eq.trans ?_ (congrArg (fields before ++ ·) hfield)⟩
  rw [List.append_assoc]
  rcases hbefore with rfl | ⟨b, hlast, hb⟩
  · rfl
  · obtain ⟨init, rfl⟩ := List.getLast?_eq_some_iff.mp hlast
    exact (decodeFrom_past_field 0 [] hb init _).trans (by rw [Nat.zero_add]; rfl)

end

/-! ### The counted widen words (R170, R171) -/

/-- Of two widen words or more the first and the last count. -/
theorem countedWidens_ends (a : Nat × Nat) (mid : List (Nat × Nat)) (b : Nat × Nat) :
    countedWidens (a :: (mid ++ [b])) = [a, b] := by
  cases mid with
  | nil => rfl
  | cons c mid => simp [countedWidens]

theorem index_closeField (i : Nat) (ws : List Word) (w : Word) :
    (closeField (widensFrom i ws) (i + ws.length) w).index = i := by
  match ws with
  | [] => rfl
  | [_] => rfl
  | _ :: _ :: _ => rfl

section
variable (i j : Nat) (w : Word)

theorem parts_closeField_none : (closeField (widensFrom i []) j w).parts = [lowBits w] := rfl

theorem parts_closeField_one (a : Word) : (closeField (widensFrom i [a]) j w).parts = [lowBits a, lowBits w] := rfl

theorem parts_closeField_ends (a : Word) (mid : List Word) (b : Word) :
    (closeField (widensFrom i (a :: mid ++ [b])) j w).parts = [lowBits a, lowBits b, lowBits w] := by
  have hcounted : countedWidens (widensFrom i (a :: mid ++ [b])) =
      [(i, lowBits a), (i + (a :: mid).length, lowBits b)] := by
    rw [widensFrom_append, widensFrom_cons, List.cons_append]
    exact countedWidens_ends _ _ _
  unfold closeField
  rw [hcounted]
  rfl

end

/-! ### Values of one, two and three parts (R170, R172) -/

section
variable {f : Field} {x y z : Nat}

theorem Field.values_of_one (h : f.parts = [x]) :
    f.value = x ∧ f.signed = if x < 16384 then (x : Int) else x - 32768 := by
  have hvalue : f.value = x := by simp [Field.value, h]
  exact ⟨hvalue, by simp [Field.signed, h, hvalue]⟩

theorem Field.values_of_two (h : f.parts = [x, y]) :
    f.value = x * 32768 + y ∧ f.signed = if x < 16384 then (f.value : Int) else f.value - 1073741824 :=
  ⟨by simp [Field.value, h], by simp [Field.signed, h]⟩

theorem Field.values_of_three (h : f.parts = [x, y, z]) :
    f.value = x * 1073741824 + y * 32768 + z
      ∧ f.signed = if x < 16384 then (f.value : Int) else f.value - 35184372088832 :=
  ⟨by simp [Field.value, h]; omega, by simp [Field.signed, h]⟩

end

/-- Bit 14 of a widen word is its field's sign. -/
theorem widen_lt_sign_iff (a : Word) : a.toNat - 32768 < 16384 ↔ a.toNat < 49152 := by omega

end Sys2Proof.Machine

/-! ### The statement -/

open Sys2Proof Sys2Proof.Machine

/-- Settles O29: decoding starts afresh behind a field word, so the run in front of the next field word is its own, and
the parts of its field are those of the counted widen words. -/
theorem fieldsAssembleWidenWords : Obligations.FieldsAssembleWidenWords := by
  unfold Obligations.FieldsAssembleWidenWords
  refine ⟨length_decodeFrom 0 [], fun before run after w hbefore hrun hw => ?_⟩
  obtain ⟨rest, hfields⟩ := fields_assembled hbefore hrun hw after
  refine ⟨_, rest, hfields, index_closeField _ _ _, ?_, ?_, ?_⟩
  · rintro rfl
    simpa only [lowBits_of_field hw] using Field.values_of_one (parts_closeField_none _ _ w)
  · rintro a rfl
    have ha : 32768 ≤ a.toNat := hrun a (by simp)
    have hvalues := Field.values_of_two (parts_closeField_one before.length (before.length + [a].length) w a)
    simpa only [lowBits_of_field hw, lowBits_of_widen ha, widen_lt_sign_iff] using hvalues
  · rintro a mid b rfl
    have ha : 32768 ≤ a.toNat := hrun a (by simp)
    have hb : 32768 ≤ b.toNat := hrun b (by simp)
    have hvalues := Field.values_of_three
      (parts_closeField_ends before.length (before.length + (a :: mid ++ [b]).length) w a mid b)
    simpa only [lowBits_of_field hw, lowBits_of_widen ha, lowBits_of_widen hb, widen_lt_sign_iff] using hvalues

end

section
/-! PROOFS. STATUS.GET: its five sets, its fifty words, and the statement. -/

namespace Sys2Proof.Machine

/-! ### The sets (R50, R179) -/

section
variable {s : State} {set : ScreenSet}

theorem State.alignedSet_eq (h : ∀ k, inSet set k = true ↔
    (s.screen k).present = true ∧ (s.screen k).kind = .anchor ∧ (s.screen k).aligned = true) : s.alignedSet = set := by
  refine screensWhere_eq fun k => Bool.eq_iff_iff.mpr ?_
  rw [h k, Bool.and_eq_true, isAnchor_iff, and_assoc]

theorem State.slewingSet_eq (h : ∀ k, inSet set k = true ↔
    (s.screen k).present = true ∧ (s.screen k).chan.applied ≠ (s.screen k).chan.target) : s.slewingSet = set := by
  refine screensWhere_eq fun k => Bool.eq_iff_iff.mpr ?_
  rw [h k, Bool.and_eq_true, bne_iff_ne]

theorem State.limitSet_eq (h : ∀ k, inSet set k = true ↔ (s.screen k).present = true ∧ 0 < (s.screen k).limit
    ∧ ((s.screen k).chan.target = (s.screen k).limit ∨ (s.screen k).chan.target = -(s.screen k).limit)) :
    s.limitSet = set := by
  refine screensWhere_eq fun k => Bool.eq_iff_iff.mpr ?_
  rw [h k, Bool.and_eq_true, Bool.and_eq_true, Bool.or_eq_true, decide_eq_true_iff, beq_iff_eq, beq_iff_eq, and_assoc]

theorem State.lagSet_eq (h : ∀ k, inSet set k = true ↔
    (s.screen k).present = true ∧ (s.screen k).chan.target < 0) : s.lagSet = set := by
  refine screensWhere_eq fun k => Bool.eq_iff_iff.mpr ?_
  rw [h k, Bool.and_eq_true, decide_eq_true_iff]

end

/-! ### The words (R179) -/

section
variable {s : State} {n : PortId} {tag : Byte} {payload : List Word}

theorem State.length_statusWords : (s.statusWords n).length = 50 := by
  have hscreens : (allScreens.flatMap fun k => words1 (s.engState k).toCode).length = 24 := by
    simp [List.length_flatMap, allScreens]
  simp only [State.statusWords, List.length_append, words1_length, words2_length, words3_length, flagWord_length,
    setWords_eq, hscreens]

/-- Of a port the words show its role alone, which a frame leaves. -/
theorem State.statusWords_receiveFrame (kind : Byte) :
    (s.receiveFrame n kind tag payload).statusWords n = s.statusWords n := by
  unfold State.statusWords
  rw [State.role_receiveFrame]
  rfl

/-! ### STATUS.GET as a command -/

theorem takeStatusGet_range {a : Answer} (h : noFields payload = some a) : takeStatusGet n payload s = (s, a) := by
  simp [takeStatusGet, h]

theorem takeStatusGet_ok (h : noFields payload = none) :
    takeStatusGet n payload s = (s, accept (s.statusWords n)) := by
  simp [takeStatusGet, h]

end

end Sys2Proof.Machine

/-! ### The statement -/

open Sys2Proof Sys2Proof.Machine

/-- Settles O50: the five sets are the model's own, so the words asked for are those that STATUS.GET answers. -/
theorem statusGetReportsFiftyWords : Obligations.StatusGetReportsFiftyWords := by
  unfold Obligations.StatusGetReportsFiftyWords
  intro s n tag payload ws aligned slewing limit lag hears haligned hslewing hlimit hlag hws
  have hwords : ws = s.statusWords n := by
    rw [hws, ← State.alignedSet_eq haligned, ← State.slewingSet_eq hslewing, ← State.limitSet_eq hlimit,
      ← State.lagSet_eq hlag, ← flagWord_eq, ← flagWord_eq]
    rfl
  subst hwords
  refine ⟨State.length_statusWords, fun hnone => ?_, fun f rest hsome => ?_⟩
  · refine exec_unchanged (k := .statusGet) (a := accept (s.statusWords n)) hears rfl
      ((takeStatusGet_ok (noFields_of_nil hnone)).trans ?_)
    rw [State.statusWords_receiveFrame]
  · exact exec_unchanged (k := .statusGet) hears rfl (takeStatusGet_range (noFields_of_field hsome))

end

section
/-! PROOFS. KIND and ROLE are answers of the Port Interface: no block gives them. The permission table, the unknown kinds,
and the statement. -/

namespace Sys2Proof.Machine

/-! ### The status codes that blocks answer -/

/-- A status code that is neither KIND nor ROLE, which are given before a request reaches its block (R168). -/
abbrev Status.FromBlock (c : Status) : Prop := c ≠ .kind ∧ c ≠ .role

/-- A check refuses with no code of the Port Interface. -/
def RefusesFromBlock {α : Type} (checked : Except Answer α) : Prop := ∀ a, checked = .error a → a.code.FromBlock

theorem fromBlock_refuse {c : Status} (h : c.FromBlock) (i : Nat) : (refuse c i).code.FromBlock := h

theorem fromBlock_state (i : Nat) : (refuse .state i).code.FromBlock := fromBlock_refuse (by decide) i

theorem fromBlock_tooFew (payload : List Word) : (tooFew payload).code.FromBlock := fromBlock_refuse (by decide) _

theorem fromBlock_naming (f : Field) : (naming f).code.FromBlock := fromBlock_refuse (by decide) _

theorem fromBlock_accept (words : List Word) : (accept words).code.FromBlock :=
  show Status.ok.FromBlock by decide

section
variable {α β : Type} {a : Answer}

theorem RefusesFromBlock.ok (v : α) : RefusesFromBlock (.ok v) := nofun

theorem RefusesFromBlock.error (h : a.code.FromBlock) : RefusesFromBlock (.error a : Except Answer α) := by
  rintro b ⟨⟩
  exact h

theorem RefusesFromBlock.test {test : Prop} [Decidable test] {next : Except Answer α} (h : a.code.FromBlock)
    (hnext : RefusesFromBlock next) : RefusesFromBlock (if test then .error a else next) := by
  split
  · exact .error h
  · exact hnext

theorem RefusesFromBlock.bind {checked : Except Answer α} {next : α → Except Answer β} (h : RefusesFromBlock checked)
    (hnext : ∀ v, RefusesFromBlock (next v)) : RefusesFromBlock (checked >>= next) := by
  cases checked with
  | error a => exact .error (h a rfl)
  | ok v => exact hnext v

theorem RefusesFromBlock.map {checked : Except Answer α} (f : α → β) (h : RefusesFromBlock checked) :
    RefusesFromBlock (checked.map f) := by
  cases checked with
  | error a => exact .error (h a rfl)
  | ok v => exact .ok (f v)

end

/-! ### Checks of payloads (R173) -/

section
variable (payload : List Word)

theorem fromBlock_noFields {payload : List Word} {a : Answer} (h : noFields payload = some a) : a.code.FromBlock := by
  obtain ⟨f, -, rfl⟩ := Option.map_eq_some_iff.mp h
  exact fromBlock_naming f

theorem fromBlock_firstOutside {ranges : List (Nat × Nat)} {fs : List Field} {a : Answer}
    (h : firstOutside ranges fs = some a) : a.code.FromBlock := by
  obtain ⟨fr, -, rfl⟩ := Option.map_eq_some_iff.mp h
  exact fromBlock_naming fr.1

theorem exactly_fromBlock (n : Nat) : RefusesFromBlock (exactly n payload) := by
  refine .test (fromBlock_tooFew payload) ?_
  split
  · exact .error (fromBlock_naming _)
  · exact .ok _

theorem oneField_fromBlock (low high : Nat) : RefusesFromBlock (oneField low high payload) := by
  unfold oneField
  split
  · exact .error (fromBlock_tooFew payload)
  · refine .test (fromBlock_naming _) ?_
    split
    · exact .ok _
    · exact .error (fromBlock_naming _)

theorem oneScreen_fromBlock : RefusesFromBlock (oneScreen payload) := by
  unfold oneScreen
  split
  · exact .error (fromBlock_tooFew payload)
  · split
    · split
      · exact .ok _
      · exact .error (fromBlock_naming _)
    · exact .error (fromBlock_naming _)

theorem oneSigned_fromBlock : RefusesFromBlock (oneSigned payload) := by
  unfold oneSigned
  split
  · exact .error (fromBlock_tooFew payload)
  · exact .ok _
  · exact .error (fromBlock_naming _)

theorem takeField_fromBlock (low high : Nat) (fs : List Field) : RefusesFromBlock (takeField payload low high fs) := by
  unfold takeField
  split
  · exact .error (fromBlock_tooFew payload)
  · exact .test (fromBlock_naming _) (.ok _)

/-! ### Checks of requests -/

variable (s : State)

theorem linePutParse_fromBlock : RefusesFromBlock (linePutParse payload s) := by
  refine .test (fromBlock_state 0) ?_
  split
  · exact .error (exactly_fromBlock payload 6 _ ‹_›)
  · split
    · exact .error (fromBlock_firstOutside ‹_›)
    · exact .ok _

theorem groupAlignParse_fromBlock : RefusesFromBlock (groupAlignParse payload s) := by
  unfold groupAlignParse
  split
  · exact .error (oneScreen_fromBlock payload _ ‹_›)
  · exact .test (fromBlock_state 0) (.test (fromBlock_state 0) (.ok _))

theorem engageParse_fromBlock : RefusesFromBlock (engageParse payload s) := by
  unfold engageParse
  split
  · exact .error (oneScreen_fromBlock payload _ ‹_›)
  · refine .test (fromBlock_state 0) (.test (fromBlock_state 0) (.test (fromBlock_refuse (by decide) 0) ?_))
    exact .test (fromBlock_state 0) (.test (fromBlock_state 0) (.test (fromBlock_state 0) (.ok _)))

theorem liftParse_fromBlock : RefusesFromBlock (liftParse payload s) := by
  unfold liftParse
  split
  · exact .error (oneScreen_fromBlock payload _ ‹_›)
  · exact .test (fromBlock_refuse (by decide) 0) (.ok _)

theorem screenClearParse_fromBlock : RefusesFromBlock (screenClearParse payload s) := by
  unfold screenClearParse
  split
  · exact .error (oneScreen_fromBlock payload _ ‹_›)
  · exact .test (fromBlock_state 0) (.test (fromBlock_state 0) (.test (fromBlock_state 0) (.ok _)))

theorem segmentGetParse_fromBlock : RefusesFromBlock (segmentGetParse payload) := by
  unfold segmentGetParse
  split
  · exact .error (fromBlock_tooFew payload)
  · refine .test (fromBlock_naming _) ?_
    split
    · exact .ok _
    · refine .test (fromBlock_naming _) ?_
      split
      · exact .ok _
      · exact .error (fromBlock_naming _)

theorem regReportParse_fromBlock : RefusesFromBlock (regReportParse payload) := by
  unfold regReportParse
  split
  · refine .test (fromBlock_naming _) ?_
    split
    · exact .ok _
    · exact .error (fromBlock_naming _)
  · exact .error (fromBlock_naming _)
  · exact .error (fromBlock_tooFew payload)

theorem regReportAccept_fromBlock (r : RegReport) : RefusesFromBlock (regReportAccept r s) := by
  unfold regReportAccept
  split
  · exact .error (fromBlock_refuse (by decide) 0)
  · refine .test (fromBlock_refuse (by decide) 0) (.test (fromBlock_refuse (by decide) 0) ?_)
    exact .test (fromBlock_refuse (by decide) 0) (.test (fromBlock_refuse (by decide) _) (.ok _))

theorem fromBlock_zoneFieldRefusal {b0 : Field} {bounds weights : List Field} {a : Answer}
    (h : zoneFieldRefusal b0 bounds weights = some a) : a.code.FromBlock := by
  unfold zoneFieldRefusal at h
  split at h
  · cases h
    exact fromBlock_naming b0
  · split at h
    · cases h
      exact fromBlock_naming _
    · obtain ⟨f, -, rfl⟩ := Option.map_eq_some_iff.mp h
      exact fromBlock_naming f

theorem zonePutParse_fromBlock : RefusesFromBlock (zonePutParse payload s) := by
  refine .test (fromBlock_state 0) ?_
  split
  · exact .error (fromBlock_tooFew payload)
  · refine .test (fromBlock_naming _) (.test (fromBlock_tooFew payload) ?_)
    split
    · exact .error (fromBlock_naming _)
    · exact .error (fromBlock_tooFew payload)
    · split
      · exact .error (fromBlock_zoneFieldRefusal ‹_›)
      · exact .ok _

theorem zoneSampleParse_fromBlock : RefusesFromBlock (zoneSampleParse payload s) := by
  refine .test (fromBlock_state 0) (.test (fromBlock_tooFew payload) ?_)
  split
  · exact .error (fromBlock_refuse (by decide) _)
  · exact .ok _

theorem curePutParse_fromBlock : RefusesFromBlock (curePutParse payload) := by
  unfold curePutParse
  split
  · exact .error (exactly_fromBlock payload 4 _ ‹_›)
  · split
    · exact .error (fromBlock_firstOutside ‹_›)
    · exact .test (fromBlock_refuse (by decide) _) (.ok _)

theorem attnEnableParse_fromBlock : RefusesFromBlock (attnEnableParse payload) := by
  unfold attnEnableParse
  split
  · exact .error (exactly_fromBlock payload 1 _ ‹_›)
  · split
    · exact .error (fromBlock_firstOutside ‹_›)
    · exact .ok _

/-! ### Records of SCREEN.PUT and SCREEN.TUNE (R22 to R25, R28) -/

variable (fs : List Field)

theorem parseRecord_fromBlock : RefusesFromBlock (parseRecord payload s fs) := by
  refine (takeField_fromBlock payload _ _ fs).bind fun head => ?_
  refine (takeField_fromBlock payload _ _ _).bind fun present => ?_
  refine (takeField_fromBlock payload _ _ _).bind fun kind => ?_
  refine (takeField_fromBlock payload _ _ _).bind fun dist => ?_
  refine (takeField_fromBlock payload _ _ _).bind fun limit => ?_
  dsimp only
  split
  · exact ((takeField_fromBlock payload _ _ _).map _).bind fun ext => .test (fromBlock_naming _) (.ok _)
  · exact (RefusesFromBlock.ok _).bind fun ext => .test (fromBlock_naming _) (.ok _)

theorem parseTuning_fromBlock : RefusesFromBlock (parseTuning payload fs) := by
  refine (takeField_fromBlock payload _ _ fs).bind fun lead => ?_
  refine (takeField_fromBlock payload _ _ _).bind fun slew => ?_
  refine (takeField_fromBlock payload _ _ _).bind fun gain => ?_
  refine (takeField_fromBlock payload _ _ _).bind fun deadband => ?_
  exact (takeField_fromBlock payload _ _ _).bind fun step => .ok _

theorem fromBlock_keyScreenRefusal {t : Vector Screen 24} {j : ScreenId} {r : StructRecord} {a : Answer}
    (h : keyScreenRefusal t j r = some a) : a.code.FromBlock := by
  unfold keyScreenRefusal at h
  split at h
  · split at h
    · split at h
      · cases h
        exact fromBlock_refuse (by decide) _
      · split at h
        · cases h
          exact fromBlock_refuse (by decide) _
        · cases h
    · split at h
      · cases h
        exact fromBlock_state _
      · cases h
  · split at h
    · cases h
      exact fromBlock_state _
    · cases h

theorem fromBlock_recordRefusal {s : State} {j : ScreenId} {r : StructRecord} {a : Answer}
    (h : recordRefusal s j r = some a) : a.code.FromBlock := by
  unfold recordRefusal at h
  split at h
  · cases h
    exact fromBlock_keyScreenRefusal ‹_›
  · split at h
    · cases h
      exact fromBlock_state _
    · cases h

/-- The records end with OK or with the refusal of one of them (R21). -/
theorem fromBlock_putRecords (n : Nat) (j : ScreenId) (m : Nat) :
    (putRecords payload n j m fs s).2.code.FromBlock := by
  induction n generalizing j m fs s with
  | zero => exact fromBlock_accept []
  | succ n ih =>
    unfold putRecords
    split
    · exact fromBlock_accept []
    · split
      next a hparse => exact parseRecord_fromBlock payload s fs a hparse
      · split
        next a hrefusal => exact (fromBlock_recordRefusal hrefusal : a.code.FromBlock)
        · exact ih _ _ _ _

theorem fromBlock_tuneRecords (n : Nat) (j : ScreenId) (m : Nat) :
    (tuneRecords payload n j m fs s).2.code.FromBlock := by
  induction n generalizing j m fs s with
  | zero => exact fromBlock_accept []
  | succ n ih =>
    unfold tuneRecords
    split
    · exact fromBlock_accept []
    · split
      next a hparse => exact parseTuning_fromBlock payload fs a hparse
      · exact ih _ _ _ _

/-! ### The answers of the blocks -/

theorem fromBlock_segmentGetAnswer : (segmentGetAnswer payload s).code.FromBlock := by
  unfold segmentGetAnswer
  split
  · exact segmentGetParse_fromBlock payload _ ‹_›
  · split
    · exact fromBlock_refuse (by decide) 0
    · exact fromBlock_accept _

theorem fromBlock_webWhereAnswer : (webWhereAnswer payload s).code.FromBlock := by
  unfold webWhereAnswer
  split
  · exact oneSigned_fromBlock payload _ ‹_›
  · dsimp only
    split
    · exact fromBlock_refuse (by decide) 0
    · exact fromBlock_accept _

theorem fromBlock_zoneContentsAnswer : (zoneContentsAnswer payload s).code.FromBlock := by
  unfold zoneContentsAnswer
  split
  · exact oneField_fromBlock payload _ _ _ ‹_›
  · split
    · exact fromBlock_tooFew payload
    · exact fromBlock_accept _

theorem fromBlock_rollGetAnswer : (rollGetAnswer payload s).code.FromBlock := by
  unfold rollGetAnswer
  split
  · exact fromBlock_accept _
  · split
    · exact oneField_fromBlock payload _ _ _ ‹_›
    · split
      · exact fromBlock_refuse (by decide) 0
      · exact fromBlock_accept _

/-- No block answers a request KIND or ROLE. -/
theorem fromBlock_taker (k : Kind) (n : PortId) : (taker k n payload s).2.code.FromBlock := by
  cases k with
  | segmentGet => exact fromBlock_segmentGetAnswer payload s
  | webWhere => exact fromBlock_webWhereAnswer payload s
  | zoneContents => exact fromBlock_zoneContentsAnswer payload s
  | rollGet => exact fromBlock_rollGetAnswer payload s
  | linePut =>
    dsimp only [taker, takeLinePut]
    split
    · exact linePutParse_fromBlock payload s _ ‹_›
    · exact fromBlock_accept _
  | screenGet =>
    dsimp only [taker, takeScreenGet]
    split
    · exact oneScreen_fromBlock payload _ ‹_›
    · exact fromBlock_accept _
  | stretchSet =>
    dsimp only [taker, takeStretchSet]
    split
    · exact oneSigned_fromBlock payload _ ‹_›
    · exact fromBlock_accept _
  | groupAlign =>
    dsimp only [taker, takeGroupAlign]
    split
    · exact groupAlignParse_fromBlock payload s _ ‹_›
    · exact fromBlock_accept _
  | engage =>
    dsimp only [taker, takeEngage]
    split
    · exact engageParse_fromBlock payload s _ ‹_›
    · exact fromBlock_accept _
  | lift =>
    dsimp only [taker, takeLift]
    split
    · exact liftParse_fromBlock payload s _ ‹_›
    · exact fromBlock_accept _
  | screenClear =>
    dsimp only [taker, takeScreenClear]
    split
    · exact screenClearParse_fromBlock payload s _ ‹_›
    · exact fromBlock_accept _
  | zonePut =>
    dsimp only [taker, takeZonePut]
    split
    · exact zonePutParse_fromBlock payload s _ ‹_›
    · exact fromBlock_accept _
  | curePut =>
    dsimp only [taker, takeCurePut]
    split
    · exact curePutParse_fromBlock payload _ ‹_›
    · exact fromBlock_accept _
  | zoneSample =>
    dsimp only [taker, takeZoneSample]
    split
    · exact zoneSampleParse_fromBlock payload s _ ‹_›
    · exact fromBlock_accept _
  | attnEnable =>
    dsimp only [taker, takeAttnEnable]
    split
    · exact attnEnableParse_fromBlock payload _ ‹_›
    · exact fromBlock_accept _
  | regReport =>
    dsimp only [taker, takeRegReport]
    split
    · exact regReportParse_fromBlock payload _ ‹_›
    · split
      · exact regReportAccept_fromBlock s _ _ ‹_›
      · exact fromBlock_accept _
  | faultTake | reportTake =>
    dsimp only [taker, takeFaultTake, takeReportTake]
    split
    · exact fromBlock_noFields ‹_›
    · split
      · exact fromBlock_refuse (by decide) 0
      · exact fromBlock_accept _
  | runBegin | runDrain | runAbort =>
    dsimp only [taker, takeRunBegin, takeRunDrain, takeRunAbort]
    split
    · exact fromBlock_noFields ‹_›
    · split
      · exact fromBlock_state 0
      · exact fromBlock_accept _
  | statusGet | attnTake =>
    dsimp only [taker, takeStatusGet, takeAttnTake]
    split
    · exact fromBlock_noFields ‹_›
    · exact fromBlock_accept _
  | screenPut =>
    dsimp only [taker, takeScreenPut]
    split
    · exact fromBlock_tooFew payload
    · exact fromBlock_tooFew payload
    · exact fromBlock_putRecords payload s _ _ _ _
  | screenTune =>
    dsimp only [taker, takeScreenTune]
    split
    · exact fromBlock_tooFew payload
    · exact fromBlock_tooFew payload
    · exact fromBlock_tuneRecords payload s _ _ _ _

end

/-! ### The Port Interface's own refusals (R168, R177) -/

/-- The permission table, role by role (R177). -/
theorem permits_iff (k : Kind) (r : Role) : permits k r = true ↔
    (r = .line ∧ k ≠ .regReport ∧ k ≠ .zoneSample)
    ∨ (r = .oven ∧ (k = .curePut ∨ k = .zoneSample ∨ k = .zoneContents))
    ∨ (r = .inspect ∧ k = .regReport)
    ∨ (r = .observe ∧ k = .zoneContents)
    ∨ k = .screenGet ∨ k = .segmentGet ∨ k = .webWhere ∨ k = .rollGet ∨ k = .statusGet ∨ k = .attnEnable
    ∨ k = .attnTake := by
  cases r with
  | line => cases k <;> decide
  | oven => cases k <;> decide
  | inspect => cases k <;> decide
  | observe => cases k <;> decide

theorem ofCode_eq_none {c : Byte} (h : c ∉ Kind.all.map Kind.code) : Kind.ofCode c = none := by
  refine List.find?_eq_none.mpr fun k hk hcode => h (List.mem_map.mpr ⟨k, hk, ?_⟩)
  exact eq_of_beq hcode

section
variable {s : State} {payload : List Word} (n : PortId) (tag : Byte)

/-- A good frame of a kind that is in no row of R182. -/
theorem wholeFrame_unknown {c : Byte} (hears : s.hearsAny payload) (hfetch : c ≠ fetchCode)
    (hkind : Kind.ofCode c = none) :
    wholeFrame n c tag payload s = s.answered n c tag payload .kind 0 [] := by
  obtain ⟨hrun, hlen⟩ := hears
  unfold wholeFrame frameGood
  rw [hrun, if_neg (by decide), if_pos hlen, if_neg hfetch, hkind]
  rfl

/-- The reply that a request's command leaves: the block's answer behind the role check. -/
theorem exec_command_held (k : Kind) (hears : s.hearsAny payload) :
    ∃ (t : State) (a : Answer), exec (k.command n tag payload) s = .next t
      ∧ (t.port n).held = { kind := k.code, tag := tag, status := a.code, index := a.index, words := a.words }
      ∧ (permits k (s.port n).role = true → a.code.FromBlock)
      ∧ (permits k (s.port n).role = false → a.code = .role) := by
  cases hpermits : permits k (s.port n).role with
  | true =>
    refine ⟨_, (taker k n payload (s.receiveFrame n k.code tag payload)).2,
      (exec_command k n tag payload s).trans (congrArg _ (requestFrame_taken hears hpermits)), ?_,
      fun _ => fromBlock_taker payload _ k n, nofun⟩
    rw [State.port_holdReply, if_pos rfl]
  | false =>
    refine ⟨_, refuse .role 0, exec_role hears hpermits, ?_, nofun, fun _ => rfl⟩
    rw [State.port_answered, if_pos rfl]
    rfl

end

end Sys2Proof.Machine

/-! ### The statement -/

open Sys2Proof Sys2Proof.Machine

/-- Settles O27: an unknown kind and an unpermitted one are answered by the Port Interface; every other request is
answered by its block, which gives neither code. -/
theorem portRefusesUnknownKindsAndRoles : Obligations.PortRefusesUnknownKindsAndRoles := by
  unfold Obligations.PortRefusesUnknownKindsAndRoles
  refine ⟨rfl, fun c hc s n tag payload hears => ?_, fun k s n tag payload hears => ?_,
    fun k s n tag payload permitted hears hpermitted => ?_⟩
  · obtain ⟨hfetch, hcodes⟩ : c ≠ fetchCode ∧ c ∉ Kind.all.map Kind.code := not_or.mp (mt List.mem_cons.mpr hc)
    exact congrArg Host.Outcome.next (wholeFrame_unknown n tag hears hfetch (ofCode_eq_none hcodes))
  · obtain ⟨t, a, hexec, hheld, hpermits, hrefused⟩ := exec_command_held n tag k hears
    refine ⟨t, hexec, by rw [hheld], by rw [hheld], ?_⟩
    rw [hheld]
    cases h : permits k (s.port n).role with
    | true => exact (hpermits h).1
    | false => exact hrefused h ▸ nofun
  · have hiff : permitted ↔ permits k (s.port n).role = true := hpermitted.trans (permits_iff k _).symm
    refine ⟨fun hno => exec_role hears (Bool.eq_false_iff.mpr fun h => hno (hiff.mpr h)), fun hyes t hexec => ?_⟩
    obtain ⟨t', a, hexec', hheld, hpermits, -⟩ := exec_command_held n tag k hears
    obtain rfl : t' = t := Host.Outcome.next.inj (hexec'.symm.trans hexec)
    rw [hheld]
    exact (hpermits (hiff.mp hyes)).2

end

section
/-! PROOFS. The attention sets and lines after every step: what a command may do to them, and the statement that each line
follows its port's sets and each port's sets stay within its role. -/

namespace Sys2Proof.Machine

/-! ### Changes that keep every port's sets within its role (R176, R187, R189) -/

/-- RESETN stands as before, every port keeps its role, and a port's sets gain no kind that its role may not see. -/
structure KeepsRoles (s t : State) : Prop where
  inReset : t.inReset = s.inReset
  role : ∀ n, (t.port n).role = (s.port n).role
  kinds : ∀ n e, hasKind (t.port n).latched e ∨ hasKind (t.port n).enabled e →
    (hasKind (s.port n).latched e ∨ hasKind (s.port n).enabled e) ∨ (s.port n).role.sees e

section
variable {s t u : State}

theorem KeepsRoles.trans (h1 : KeepsRoles s t) (h2 : KeepsRoles t u) : KeepsRoles s u := by
  refine ⟨h2.inReset.trans h1.inReset, fun n => (h2.role n).trans (h1.role n), fun n e he => ?_⟩
  rcases h2.kinds n e he with hold | hsees
  · exact h1.kinds n e hold
  · exact .inr (h1.role n ▸ hsees)

/-- What latches keeps the roles (R187). -/
theorem KeepsRoles.of_latches (h : Latches s t) (hreset : t.inReset = s.inReset := by rfl) : KeepsRoles s t := by
  refine ⟨hreset, fun n => (h.keeps n).1, fun n e he => ?_⟩
  obtain ⟨-, henabled, -⟩ := h.keeps n
  obtain ⟨-, -, hnew⟩ := h n
  rcases he with hlatched | he
  · exact (hnew e hlatched).imp_left .inl
  · exact .inl (.inr (henabled ▸ he))

theorem KeepsRoles.of_ports (hports : t.ports = s.ports) (hreset : t.inReset = s.inReset := by rfl) : KeepsRoles s t :=
  .of_latches (.of_ports hports) hreset

theorem KeepsRoles.of_web (h : WebOnly s t) : KeepsRoles s t := .of_latches h.2 (by rw [h.1])
theorem KeepsRoles.of_eng (h : EngOnly s t) : KeepsRoles s t := .of_latches h.latches (by rw [h.frame])
theorem KeepsRoles.of_cycle (h : CycleOnly s t) : KeepsRoles s t := .of_latches h.2.1 (by rw [h.1])
theorem KeepsRoles.of_plan (h : PlanOnly s t) : KeepsRoles s t := .of_ports (by rw [h.1]) (by rw [h.1])

theorem KeepsRoles.refl (s : State) : KeepsRoles s s := .of_ports rfl

theorem KeepsRoles.ite {c : Prop} [Decidable c] (ht : KeepsRoles s t) (hu : KeepsRoles s u) :
    KeepsRoles s (if c then t else u) := by
  split <;> assumption

theorem KeepsRoles.withPos (s : State) (v : Position) : KeepsRoles s (s.withPos v) := .of_ports rfl
theorem KeepsRoles.withPhase (s : State) (v : PhaseShared) : KeepsRoles s (s.withPhase v) := .of_ports rfl
theorem KeepsRoles.withRing (s : State) (v : Ring) : KeepsRoles s (s.withRing v) := .of_ports rfl
theorem KeepsRoles.withOven (s : State) (v : ZoneTable) : KeepsRoles s (s.withOven v) := .of_ports rfl

theorem KeepsRoles.mapScreens (f : ScreenId → Screen → Screen) (s : State) : KeepsRoles s (s.mapScreens f) :=
  .of_ports (State.mapScreens_ports f s) (State.mapScreens_inReset f s)

theorem KeepsRoles.latchIf (c : Bool) (e : EventKind) (s : State) : KeepsRoles s (s.latchIf c e) :=
  .of_web (.latchIf c e s)

/-- A change of one port that keeps its role, and its sets within it. -/
theorem KeepsRoles.modPort {n : PortId} {f : Port → Port} (hrole : (f (s.port n)).role = (s.port n).role)
    (hkinds : ∀ e, hasKind (f (s.port n)).latched e ∨ hasKind (f (s.port n)).enabled e →
      (hasKind (s.port n).latched e ∨ hasKind (s.port n).enabled e) ∨ (s.port n).role.sees e) :
    KeepsRoles s (s.modPort n f) := by
  refine ⟨rfl, fun m => ?_, fun m e he => ?_⟩ <;> rcases eq_or_ne m n with rfl | hm
  · rw [State.port_modPort_same, hrole]
  · rw [State.port_modPort_ne hm]
  · rw [State.port_modPort_same] at he
    exact hkinds e he
  · rw [State.port_modPort_ne hm] at he
    exact .inl he

theorem KeepsRoles.evalLines (s : State) : KeepsRoles s s.evalLines := by
  refine ⟨s.evalLines_inReset, fun n => ?_, fun n e he => ?_⟩ <;> rw [State.port_evalLines] at *
  exact .inl he

theorem KeepsRoles.evalHold (s : State) : KeepsRoles s s.evalHold := .of_ports rfl

theorem KeepsRoles.portsWithinRoles (h : KeepsRoles s t) (hs : s.PortsWithinRoles) : t.PortsWithinRoles := by
  obtain ⟨hkinds, hroles⟩ := hs
  refine ⟨fun n e he => ?_, fun m n => ?_⟩
  · rw [h.role]
    exact (h.kinds n e he).elim (hkinds n e) id
  · rw [h.role, h.role]
    exact hroles m n

end

/-! ### Changes that leave the sets, the levels and the lines (R186, R190) -/

/-- Two ports agree in role, attention sets and line. -/
def Port.sameAttention (a b : Port) : Prop :=
  a.role = b.role ∧ a.latched = b.latched ∧ a.enabled = b.enabled ∧ a.line = b.line

theorem Port.sameAttention_refl (a : Port) : a.sameAttention a := ⟨rfl, rfl, rfl, rfl⟩

/-- Everything that the attention lines rest on is as before, and so are the lines. -/
structure SameAttention (s t : State) : Prop where
  inReset : t.inReset = s.inReset
  levels : ∀ e, t.levelHolds e ↔ s.levelHolds e
  ports : ∀ n, (t.port n).sameAttention (s.port n)

section
variable {s t u : State}

theorem State.levelHolds_congr (hreports : t.reports = s.reports) (hfaults : t.ring.faults = s.ring.faults)
    (hmotion : t.pos.motion = s.pos.motion) (hring : t.ring.state = s.ring.state) (e : EventKind) :
    t.levelHolds e ↔ s.levelHolds e := by
  unfold State.levelHolds
  rw [hreports, hfaults, hmotion, hring]

theorem SameAttention.of_fields (hports : t.ports = s.ports := by rfl) (hreset : t.inReset = s.inReset := by rfl)
    (hreports : t.reports = s.reports := by rfl) (hfaults : t.ring.faults = s.ring.faults := by rfl)
    (hmotion : t.pos.motion = s.pos.motion := by rfl) (hring : t.ring.state = s.ring.state := by rfl) :
    SameAttention s t := by
  refine ⟨hreset, State.levelHolds_congr hreports hfaults hmotion hring, fun n => ?_⟩
  unfold State.port
  rw [hports]
  exact Port.sameAttention_refl _

theorem SameAttention.refl (s : State) : SameAttention s s := .of_fields

theorem SameAttention.trans (h1 : SameAttention s t) (h2 : SameAttention t u) : SameAttention s u := by
  refine ⟨h2.inReset.trans h1.inReset, fun e => (h2.levels e).trans (h1.levels e), fun n => ?_⟩
  obtain ⟨hrole, hlatched, henabled, hline⟩ := h1.ports n
  obtain ⟨hrole', hlatched', henabled', hline'⟩ := h2.ports n
  exact ⟨hrole'.trans hrole, hlatched'.trans hlatched, henabled'.trans henabled, hline'.trans hline⟩

theorem SameAttention.linesFollow (h : SameAttention s t) (hs : s.LinesFollow) : t.LinesFollow :=
  State.linesFollow_congr h.inReset h.levels h.ports hs

theorem SameAttention.keepsRoles (h : SameAttention s t) : KeepsRoles s t := by
  refine ⟨h.inReset, fun n => (h.ports n).1, fun n e he => ?_⟩
  obtain ⟨-, hlatched, henabled, -⟩ := h.ports n
  rw [hlatched, henabled] at he
  exact .inl he

/-- A change of one port's serial registers. -/
theorem SameAttention.modPort {n : PortId} {f : Port → Port} (hf : (f (s.port n)).sameAttention (s.port n)) :
    SameAttention s (s.modPort n f) := by
  refine ⟨rfl, State.levelHolds_congr rfl rfl rfl rfl, fun m => ?_⟩
  rw [State.port_modPort]
  split
  · rename_i hm
    exact hm ▸ hf
  · exact Port.sameAttention_refl _

theorem SameAttention.mapScreens (f : ScreenId → Screen → Screen) (s : State) : SameAttention s (s.mapScreens f) := by
  refine .of_fields ?_ ?_ ?_ ?_ ?_ ?_ <;> simp only [State.mapScreens_ports, State.mapScreens_inReset,
    State.mapScreens_reports, State.mapScreens_ring, State.mapScreens_pos]

theorem SameAttention.modScreen (k : ScreenId) (f : Screen → Screen) (s : State) : SameAttention s (s.modScreen k f) :=
  .of_fields

end

/-! ### What a command does to the sets and lines -/

/-- Nothing that the lines rest on is touched, or the ports are kept within their roles and the lines evaluated. -/
def Attends (s t : State) : Prop := SameAttention s t ∨ (KeepsRoles s t ∧ t.LinesFollow)

section
variable {s t u : State}

theorem Attends.refl (s : State) : Attends s s := .inl (.refl s)

theorem Attends.trans (h1 : Attends s t) (h2 : Attends t u) : Attends s u := by
  rcases h1 with hsame | ⟨hroles, hlines⟩ <;> rcases h2 with hsame' | ⟨hroles', hlines'⟩
  · exact .inl (hsame.trans hsame')
  · exact .inr ⟨hsame.keepsRoles.trans hroles', hlines'⟩
  · exact .inr ⟨hroles.trans hsame'.keepsRoles, hsame'.linesFollow hlines⟩
  · exact .inr ⟨hroles.trans hroles', hlines'⟩

theorem Attends.inReset (h : Attends s t) : t.inReset = s.inReset :=
  h.elim SameAttention.inReset fun h => h.1.inReset

theorem Attends.linesFollow (h : Attends s t) (hs : s.LinesFollow) : t.LinesFollow :=
  h.elim (fun h => h.linesFollow hs) fun h => h.2

theorem Attends.portsWithinRoles (h : Attends s t) (hs : s.PortsWithinRoles) : t.PortsWithinRoles :=
  h.elim (fun h => h.keepsRoles.portsWithinRoles hs) fun h => h.1.portsWithinRoles hs

/-- Out of reset a command that ends by evaluating the lines attends to them (R190). -/
theorem Attends.evalLines (hrun : s.inReset = false) (h : KeepsRoles s t) : Attends s t.evalLines :=
  .inr ⟨h.trans (.evalLines t), State.evalLines_follow t (h.inReset.trans hrun)⟩

end

/-! ### The requests -/

section
variable {s : State}

theorem KeepsRoles.enable (n : PortId) (requested : KindSet) (s : State) :
    KeepsRoles s (s.modPort n fun q => { q with enabled := requested &&& visible q.role }) := by
  refine .modPort rfl fun e he => ?_
  rw [hasKind_and, hasKind_visible] at he
  exact he.imp .inl And.right

theorem KeepsRoles.takePending (n : PortId) (taken : KindSet) (s : State) :
    KeepsRoles s (s.modPort n fun q => { q with latched := q.latched &&& ~~~taken }) := by
  refine .modPort rfl fun e he => ?_
  rw [hasKind_and] at he
  exact .inl (he.imp_left And.left)

theorem State.alignGroup_sameAttention (a : ScreenId) (s : State) : SameAttention s (s.alignGroup a) :=
  .mapScreens _ s

theorem State.putRecord_attends (j : ScreenId) (r : StructRecord) (hrun : s.inReset = false) :
    Attends s (s.putRecord j r) :=
  .evalLines hrun (.trans (.trans (.trans (.mapScreens _ s) (.withRing _ _)) (.ite (.withPhase _ _) (.refl _)))
    (.evalHold _))

theorem putRecords_attends (payload : List Word) (n : Nat) (j : ScreenId) (m : Nat) (fs : List Field)
    (hrun : s.inReset = false) : Attends s (putRecords payload n j m fs s).1 := by
  induction n generalizing j m fs s with
  | zero => exact .refl s
  | succ n ih =>
    unfold putRecords
    split
    · exact .refl s
    · split
      · exact .refl s
      · split
        · exact .refl s
        · have hput := State.putRecord_attends j ‹StructRecord› hrun
          exact hput.trans (ih _ _ _ (hput.inReset.trans hrun))

theorem tuneRecords_sameAttention (payload : List Word) (n : Nat) (j : ScreenId) (m : Nat) (fs : List Field)
    (s : State) : SameAttention s (tuneRecords payload n j m fs s).1 := by
  induction n generalizing j m fs s with
  | zero => exact .refl s
  | succ n ih =>
    unfold tuneRecords
    split
    · exact .refl s
    · split
      · exact .refl s
      · exact (SameAttention.modScreen j _ s).trans (ih _ _ _ _)

theorem State.runDrain_attends (hrun : s.inReset = false) : Attends s s.runDrain :=
  .evalLines hrun (.trans (.trans (.trans (.of_web (.withWeb s _)) (.of_plan (.liftAll _ _)))
    (.of_web (.drainIfEmpty _))) (.evalHold _))

theorem State.runAbort_attends (hrun : s.inReset = false) : Attends s s.runAbort := by
  rw [State.runAbort_unfold]
  have hemptied : KeepsRoles s s.emptied := .of_web (Offers.emptied s).webOnly
  have hscreens : KeepsRoles s.emptied s.emptied.abortScreens := by
    rw [State.abortScreens_eq]
    exact .of_ports rfl
  exact .evalLines hrun (.trans ((hemptied.trans hscreens).trans (.of_web (.withWeb _ _))) (.evalHold _))

theorem State.report_attends (seq : Nat) (k : ScreenId) (e : Int) (hrun : s.inReset = false) :
    Attends s (s.report seq k e) :=
  .evalLines hrun (.trans (.trans (.of_web (.withQueue s _)) (.of_cycle (.modChan k _ _))) (.latchIf _ _ _))

/-- A block that takes a request out of reset attends to the lines: a refusal changes nothing, and an accepted request
evaluates them or touches nothing that they rest on. -/
theorem taker_attends (k : Kind) (n : PortId) (payload : List Word) (hrun : s.inReset = false) :
    Attends s (taker k n payload s).1 := by
  cases k with
  | segmentGet | webWhere | zoneContents | rollGet => exact .refl s
  | statusGet =>
    dsimp only [taker, takeStatusGet]
    split <;> exact .refl s
  | linePut | stretchSet | zonePut | curePut | screenClear =>
    dsimp only [taker, takeLinePut, takeStretchSet, takeZonePut, takeCurePut, takeScreenClear]
    split
    · exact .refl s
    · exact .inl .of_fields
  | screenGet =>
    dsimp only [taker, takeScreenGet, State.groupWords]
    split
    · exact .refl s
    · split <;> exact .inl .of_fields
  | groupAlign =>
    dsimp only [taker, takeGroupAlign]
    split
    · exact .refl s
    · exact .inl (State.alignGroup_sameAttention _ s)
  | engage =>
    dsimp only [taker, takeEngage]
    split
    · exact .refl s
    · rw [State.engage_eq]
      exact .inl .of_fields
  | lift =>
    dsimp only [taker, takeLift]
    split
    · exact .refl s
    · rw [State.lift_eq]
      exact .inl .of_fields
  | runBegin =>
    dsimp only [taker, takeRunBegin]
    split
    · exact .refl s
    · split
      · exact .refl s
      · exact .inl .of_fields
  | faultTake | reportTake =>
    dsimp only [taker, takeFaultTake, takeReportTake]
    split
    · exact .refl s
    · split
      · exact .refl s
      · exact .evalLines hrun (.of_ports rfl)
  | runDrain =>
    dsimp only [taker, takeRunDrain]
    split
    · exact .refl s
    · split
      · exact .refl s
      · exact State.runDrain_attends hrun
  | runAbort =>
    dsimp only [taker, takeRunAbort]
    split
    · exact .refl s
    · split
      · exact .refl s
      · exact State.runAbort_attends hrun
  | zoneSample =>
    dsimp only [taker, takeZoneSample]
    split
    · exact .refl s
    · exact .evalLines hrun (.trans (.withOven s _) (.latchIf _ _ _))
  | regReport =>
    dsimp only [taker, takeRegReport]
    split
    · exact .refl s
    · split
      · exact .refl s
      · exact State.report_attends _ _ _ hrun
  | attnEnable =>
    dsimp only [taker, takeAttnEnable]
    split
    · exact .refl s
    · exact .evalLines hrun (.enable n _ s)
  | attnTake =>
    dsimp only [taker, takeAttnTake]
    split
    · exact .refl s
    · exact .evalLines hrun (.takePending n _ s)
  | screenPut =>
    dsimp only [taker, takeScreenPut]
    split
    · exact .inl .of_fields
    · exact .refl s
    · exact putRecords_attends payload _ _ _ _ hrun
  | screenTune =>
    dsimp only [taker, takeScreenTune]
    split
    · exact .inl .of_fields
    · exact .refl s
    · exact .inl (tuneRecords_sameAttention payload _ _ _ _ s)

end

/-! ### Frames at the ports -/

section
variable {s : State} {n : PortId} {kind tag : Byte} {payload : List Word}

theorem Port.word_sameAttention (w : Word) (q : Port) : (q.word w).sameAttention q := by
  unfold Port.word Port.shiftOut
  split
  case h_6 =>
    split
    · exact ⟨rfl, rfl, rfl, rfl⟩
    · split <;> exact ⟨rfl, rfl, rfl, rfl⟩
  all_goals exact ⟨rfl, rfl, rfl, rfl⟩

theorem SameAttention.holdReply (a : Answer) (s : State) : SameAttention s (s.holdReply n kind tag a) :=
  .modPort ⟨rfl, rfl, rfl, rfl⟩

theorem SameAttention.receiveFrame (s : State) : SameAttention s (s.receiveFrame n kind tag payload) :=
  .modPort ⟨Port.received_role _ _ _ _, Port.received_latched _ _ _ _, Port.received_enabled _ _ _ _,
    Port.received_line _ _ _ _⟩

theorem SameAttention.releaseSelect (bits : Fin 16) (w : Word) (s : State) :
    SameAttention s (s.releaseSelect n bits w) := by
  refine .modPort ?_
  split
  · exact ⟨rfl, rfl, rfl, rfl⟩
  · exact ⟨Port.release_role _ _ _, Port.release_latched _ _ _, Port.release_enabled _ _ _, Port.release_line _ _ _⟩

theorem answerRequest_attends (k : Kind) (hrun : s.inReset = false) :
    Attends s (answerRequest k (taker k) n tag payload s) := by
  unfold answerRequest
  split
  · exact (taker_attends k n payload hrun).trans (.inl (.holdReply _ _))
  · exact .inl (.holdReply _ s)

theorem requestFrame_attends (k : Kind) : Attends s (requestFrame k (taker k) n tag payload s) := by
  have hreceive : ∀ c : Byte, Attends s (s.receiveFrame n c tag payload) := fun _ => .inl (.receiveFrame s)
  unfold requestFrame
  split
  · exact .refl s
  · rename_i hrun
    split
    · exact (hreceive _).trans (answerRequest_attends k (by simpa using hrun))
    · exact hreceive _

theorem frameGood_attends (hrun : s.inReset = false) : Attends s (frameGood n kind tag payload s) := by
  unfold frameGood
  split
  · exact .inl (.modPort ⟨rfl, rfl, rfl, rfl⟩)
  · split
    · exact .inl (.holdReply _ s)
    · exact answerRequest_attends _ hrun

theorem wholeFrame_attends : Attends s (wholeFrame n kind tag payload s) := by
  have hreceive : Attends s (s.receiveFrame n kind tag payload) := .inl (.receiveFrame s)
  unfold wholeFrame
  split
  · exact .refl s
  · rename_i hrun
    split
    · exact hreceive.trans (frameGood_attends (by simpa using hrun))
    · exact hreceive

theorem State.completeWord_attends (w : Word) (s : State) : Attends s (s.completeWord n w) := by
  unfold State.completeWord
  split
  · exact .refl s
  · rename_i hrun
    split
    · split
      · have hdone : Attends s (s.modPort n fun q => { q with rx := .done, dataOut := 0 }) :=
          .inl (.modPort ⟨rfl, rfl, rfl, rfl⟩)
        exact hdone.trans (frameGood_attends (by simpa using hrun))
      · exact .inl (.modPort ⟨rfl, rfl, rfl, rfl⟩)
    · exact .inl (.modPort (Port.word_sameAttention w _))

end

/-! ### The events of the part -/

section
variable {s : State}

theorem KeepsRoles.advancePosition (s : State) : KeepsRoles s s.advancePosition :=
  .trans (.withPos s _) (.latchIf _ _ _)

theorem State.driveCycle_attends (hrun : s.inReset = false) : Attends s s.driveCycle :=
  .evalLines hrun (.trans (.trans (.trans (.advancePosition s) (.of_cycle (.beforeSend _ _))) (.withRing _ _))
    (.evalHold _))

theorem State.turnaround_attends (reply : ScreenId → Option DriveReply) (hrun : s.inReset = false) :
    Attends s (s.turnaround reply) := by
  rw [State.turnaround_eq]
  have hclose : KeepsRoles s (s.closeFrame reply) := by
    rw [State.closeFrame_eq]
    exact .of_ports rfl
  exact .evalLines hrun (.trans (hclose.trans (.of_eng (.faultSlots reply s))) (.evalHold _))

theorem State.doseTick_attends (hrun : s.inReset = false) : Attends s s.ageZones.addDoses.evalLines :=
  .evalLines hrun (.trans (.trans (.trans (.withOven s _) (.latchIf _ _ _)) (.latchIf _ _ _)) (.of_web (.withQueue _ _)))

theorem State.seamPulse_attends (hrun : s.inReset = false) : Attends s s.seamPulse := by
  rcases s.seamPulse_cases with ⟨-, hsame⟩ | ⟨-, -, -, -, hfull⟩ | ⟨-, -, -, -, hseam⟩
  · rw [hsame]
    exact .refl s
  · rw [hfull]
    exact .evalLines hrun (.of_web (.latch _ s))
  · rw [hseam]
    exact .evalLines hrun (.of_web (.recordSeam _ s))

end

/-! ### RESETN (R175, R176, R180, R195) -/

theorem any_below_eq_false {f : PortId → Role} {p : PortId} {r : Role} :
    ((List.finRange 4).any fun q => q < p && f q == r) = false ↔ ∀ q < p, f q ≠ r := by
  simp

/-- A port that acts as LINE or as OVEN is the lowest-numbered one strapped to that role. -/
theorem actingRole_owner {f : PortId → Role} {p : PortId} {r : Role} (h : actingRole f p = r)
    (howned : r = .line ∨ r = .oven) : f p = r ∧ ∀ q < p, f q ≠ r := by
  have hlowest : ∀ {r' : Role}, (if (List.finRange 4).any fun q => q < p && f q == r' then .observe else r') = r →
      r' = r ∧ ∀ q < p, f q ≠ r := by
    intro r' hif
    split at hif <;> subst hif
    · simp at howned
    · exact ⟨rfl, any_below_eq_false.mp (Bool.eq_false_iff.mpr ‹_›)⟩
  unfold actingRole at h
  split at h <;> rename_i hp <;> rw [hp]
  · exact hlowest h
  · exact hlowest h
  · subst h
    simp at howned
  · subst h
    simp at howned

/-- No two ports act as LINE, and no two as OVEN (R176). -/
theorem actingRole_single {f : PortId → Role} {p q : PortId} (hne : p ≠ q) (hsame : actingRole f p = actingRole f q) :
    actingRole f p ≠ .line ∧ actingRole f p ≠ .oven := by
  refine not_or.mp fun howner => ?_
  obtain ⟨hp, hbelow⟩ := actingRole_owner rfl howner
  obtain ⟨hq, hbelow'⟩ := actingRole_owner hsame.symm howner
  rcases lt_or_gt_of_ne hne with hlt | hgt
  · exact hbelow' p hlt hp
  · exact hbelow q hgt hq

/-- A command goes on to a state in which the lines follow and the sets stay within the roles, if they did before. -/
def KeepsAttention (c : Instr) (s : State) : Prop :=
  ∃ t : State, exec c s = .next t ∧ (s.LinesFollow → t.LinesFollow) ∧ (s.PortsWithinRoles → t.PortsWithinRoles)

theorem resetAssert_keepsAttention (s : State) : KeepsAttention .resetAssert s := by
  refine ⟨_, rfl, fun _ n => ?_, fun h => ?_⟩
  · simp [Port.abandon]
  · simpa [State.PortsWithinRoles, Port.abandon] using h

theorem resetRelease_keepsAttention (a b c d : BitVec 2) (s : State) : KeepsAttention (.resetRelease a b c d) s := by
  refine ⟨_, rfl, fun _ n => ?_, fun _ => ⟨fun n e => ?_, fun m n hne => ?_⟩⟩
  · simp [State.port, Port.reset]
  · simp [State.port, Port.reset]
  · simpa [State.port, Port.reset] using actingRole_single hne

/-! ### Every command -/

theorem Attends.keepsAttention {c : Instr} {s t : State} (h : Attends s t) (hexec : exec c s = .next t := by rfl) :
    KeepsAttention c s :=
  ⟨t, hexec, h.linesFollow, h.portsWithinRoles⟩

theorem exec_keepsAttention (c : Instr) (s : State) : KeepsAttention c s := by
  have hrunning : ∀ t : State, (s.inReset = false → Attends s t) → Attends s (if s.inReset then s else t) := by
    intro t h
    split
    · exact .refl s
    · exact h (by simpa using ‹¬ s.inReset = true›)
  cases c with
  | resetAssert => exact resetAssert_keepsAttention s
  | resetRelease a b c d => exact resetRelease_keepsAttention a b c d s
  | encoderEdge =>
    refine Attends.keepsAttention ?_
    split
    · exact .inl .of_fields
    · exact .inl (.of_fields (hmotion := by rw [State.withPos_pos, Position.edge_eq]))
  | driveCycle => exact (hrunning _ State.driveCycle_attends).keepsAttention
  | doseTick => exact (hrunning _ State.doseTick_attends).keepsAttention
  | seamPulse => exact (hrunning _ State.seamPulse_attends).keepsAttention
  | ringFrameReturn =>
    refine Attends.keepsAttention (hrunning _ fun hrun => ?_)
    split
    · exact .refl s
    · split
      · exact State.turnaround_attends _ hrun
      · exact .refl s
  | turnaroundExpiry =>
    refine Attends.keepsAttention ?_
    split
    · exact .refl s
    · rename_i hrun
      split
      · exact .refl s
      · exact State.turnaround_attends _ (by simpa using (not_or.mp hrun).1)
  | frameBroken port how =>
    cases how with
    | released bits word => exact Attends.keepsAttention (.inl (.releaseSelect bits word s))
    | checkWord word => exact (State.completeWord_attends word s).keepsAttention
  | kindRefused | fetch => exact wholeFrame_attends.keepsAttention
  | selectAsserted =>
    refine Attends.keepsAttention (.inl (.modPort ?_))
    split_ifs <;> exact ⟨rfl, rfl, rfl, rfl⟩
  | selectReleased port bits word => exact Attends.keepsAttention (.inl (.releaseSelect bits word s))
  | wordCompleted port word => exact (State.completeWord_attends word s).keepsAttention
  | linePut | screenPut | screenTune | screenGet | stretchSet | groupAlign | engage | lift | faultTake | screenClear
  | runBegin | runDrain | runAbort | segmentGet | webWhere | regReport | zonePut | zoneSample | curePut | zoneContents
  | reportTake | rollGet | statusGet | attnEnable | attnTake => exact (requestFrame_attends _).keepsAttention

theorem step_keepsAttention {s t : State} (hstep : step s = .next t) :
    (s.LinesFollow → t.LinesFollow) ∧ (s.PortsWithinRoles → t.PortsWithinRoles) := by
  unfold step at hstep
  split at hstep
  · cases hstep
    exact ⟨id, id⟩
  · rename_i c rest _
    obtain ⟨u, hexec, hkeeps⟩ := exec_keepsAttention c (s.withPending rest)
    rw [hexec] at hstep
    cases hstep
    exact hkeeps

end Sys2Proof.Machine

/-! ### The statement -/

open Sys2Proof Sys2Proof.Machine

/-- Settles O54: every command evaluates the lines or touches nothing that they rest on, and latches and enables only what
a role may see; a step is the command at the front of the queue, or none. -/
theorem linesFollowEveryStep : Obligations.LinesFollowEveryStep := by
  unfold Obligations.LinesFollowEveryStep
  exact ⟨fun s t h hstep => (step_keepsAttention hstep).1 h, fun s t h hstep => (step_keepsAttention hstep).2 h⟩

end

section
/-! PROOFS. The two requests of the Attention Unit: a request whose owner changes its own port's sets and evaluates the
lines, and the statements of ATTN.ENABLE and ATTN.TAKE. -/

namespace Sys2Proof.Machine

/-! ### The pending set (R186, R189) -/

section
variable {s t : State} {n : PortId}

/-- What is pending on a port rests on its role and latched set and on the level conditions. -/
theorem State.pendingSet_congr (hlevels : ∀ e, t.levelHolds e ↔ s.levelHolds e)
    (hrole : (t.port n).role = (s.port n).role) (hlatched : (t.port n).latched = (s.port n).latched) :
    t.pendingSet n = s.pendingSet n := by
  refine kindSet_ext fun e => ?_
  rw [hasKind_pendingSet, hasKind_pendingSet, State.pendingOn, State.pendingOn, hlevels, hrole, hlatched]

theorem SameAttention.pendingSet (h : SameAttention s t) : t.pendingSet n = s.pendingSet n := by
  obtain ⟨hrole, hlatched, -, -⟩ := h.ports n
  exact State.pendingSet_congr h.levels hrole hlatched

theorem State.pendingSet_evalLines (s : State) (n : PortId) : s.evalLines.pendingSet n = s.pendingSet n :=
  State.pendingSet_congr
    (State.levelHolds_congr s.evalLines_reports (by rw [State.evalLines_ring]) (by rw [State.evalLines_pos])
      (by rw [State.evalLines_ring]))
    (by rw [State.port_evalLines]) (by rw [State.port_evalLines])

/-- The set of the kinds that are pending is the pending set. -/
theorem State.pendingSet_eq {pending : KindSet} (h : ∀ e, hasKind pending e ↔ s.pendingOn n e) :
    s.pendingSet n = pending :=
  kindSet_ext fun e => (hasKind_pendingSet s n e).trans (h e).symm

end

/-! ### A request whose owner changes its own port and evaluates the lines -/

section
variable {s : State} {k : Kind} {n : PortId} {tag : Byte} {payload : List Word} {a : Answer} {f : Port → Port}

/-- A port that does not read or write its held reply may change before or after a reply is held. -/
theorem holdReply_modPort {kind : Byte} (hheld : ∀ q r, f { q with held := r } = { f q with held := r }) :
    (s.modPort n f).holdReply n kind tag a = (s.holdReply n kind tag a).modPort n f := by
  unfold State.holdReply
  rw [State.modPort_modPort, State.modPort_modPort]
  exact congrArg (fun g => s.modPort n g) (funext fun q => (hheld q _).symm)

/-- The command of a kind whose owner changes its own port's sets and evaluates the lines. -/
theorem exec_changed_port (hears : s.hearsAny payload) (hpermits : permits k (s.port n).role = true)
    (htake : taker k n payload (s.receiveFrame n k.code tag payload) =
      (((s.receiveFrame n k.code tag payload).modPort n f).evalLines, a))
    (hheld : ∀ q r, f { q with held := r } = { f q with held := r }) :
    exec (k.command n tag payload) s =
      .next ((s.answered n k.code tag payload a.code a.index a.words).modPort n f).evalLines := by
  rw [exec_command, requestFrame_taken hears hpermits, htake, holdReply_evalLines,
    holdReply_modPort hheld]
  rfl

/-- What such a request leaves: the answer to it, with that port's change, and the lines evaluated. -/
theorem modPort_evalLines_spec (b : State) (n : PortId) (f : Port → Port) (hrun : b.inReset = false) :
    (b.modPort n f).evalLines = { b with ports := (b.modPort n f).evalLines.ports }
    ∧ (b.modPort n f).evalLines.LinesFollow
    ∧ ∀ m, (b.modPort n f).evalLines.port m =
        { (b.modPort n f).port m with line := ((b.modPort n f).evalLines.port m).line } :=
  ⟨rfl, State.evalLines_follow _ hrun, fun m => by rw [State.port_evalLines]⟩

theorem SameAttention.answered {kind : Byte} {code : Status} {index : Nat} {words : List Word} :
    SameAttention s (s.answered n kind tag payload code index words) :=
  (SameAttention.receiveFrame s).trans (.holdReply _ _)

end

/-! ### ATTN.ENABLE (R191) -/

section
variable {s : State} {n : PortId} {tag : Byte} {payload : List Word} {f g : Field} {rest : List Field}

theorem attnEnableParse_tooFew (h : fields payload = []) : attnEnableParse payload = .error (tooFew payload) := by
  rw [attnEnableParse, exactly_tooFew (by rw [h]; decide)]

theorem attnEnableParse_second (h : fields payload = f :: g :: rest) :
    attnEnableParse payload = .error (naming g) := by
  rw [attnEnableParse, exactly_beyond (f := g) (by rw [h]; rfl)]

theorem attnEnableParse_one (h : fields payload = [f]) : attnEnableParse payload =
    if 131071 < f.value then .error (naming f) else .ok (BitVec.ofNat 17 f.value) := by
  rw [attnEnableParse, exactly_ok (by rw [h]; rfl), h]
  dsimp only
  rw [firstOutside_cons]
  simp only [Nat.not_lt_zero, false_or]
  split_ifs <;> rfl

/-- The requested kinds, by the bits of the field. -/
theorem hasKind_ofNat (v : Nat) (e : EventKind) : hasKind (BitVec.ofNat 17 v) e ↔ v.testBit e.toCode = true := by
  rw [hasKind, BitVec.getLsbD_ofNat, decide_eq_true e.toCode_lt, Bool.true_and]

theorem takeAttnEnable_error {a : Answer} (h : attnEnableParse payload = .error a) :
    takeAttnEnable n payload s = (s, a) := by
  rw [takeAttnEnable, h]

/-- An accepted request answers the set it enables and the pending set, which it leaves. -/
theorem takeAttnEnable_ok {requested : KindSet} (h : attnEnableParse payload = .ok requested) :
    takeAttnEnable n payload s =
      ((s.modPort n fun q => { q with enabled := requested &&& visible q.role }).evalLines,
        accept (words2 (requested &&& visible (s.port n).role).toNat ++ words2 (s.pendingSet n).toNat)) := by
  have henabled : ((s.enable n requested).port n).enabled = requested &&& visible (s.port n).role := by
    rw [State.enable, State.port_evalLines, State.port_modPort_same]
  have hpending : (s.enable n requested).pendingSet n = s.pendingSet n := by
    rw [State.enable, State.pendingSet_evalLines]
    exact State.pendingSet_congr (State.levelHolds_congr rfl rfl rfl rfl) (by rw [State.port_modPort_same])
      (by rw [State.port_modPort_same])
  rw [takeAttnEnable, h]
  dsimp only
  rw [henabled, hpending]
  rfl

theorem exec_attnEnable_error {a : Answer} (hears : s.hearsAny payload) (h : attnEnableParse payload = .error a) :
    exec (.attnEnable n tag payload) s = .next (s.answered n 0x7C tag payload a.code a.index a.words) :=
  exec_unchanged (k := .attnEnable) hears rfl (takeAttnEnable_error h)

theorem exec_attnEnable_ok {requested : KindSet} (hears : s.hearsAny payload)
    (h : attnEnableParse payload = .ok requested) : exec (.attnEnable n tag payload) s =
      .next ((s.answered n 0x7C tag payload .ok 0
        (words2 (requested &&& visible (s.port n).role).toNat ++ words2 (s.pendingSet n).toNat)).modPort n
          fun q => { q with enabled := requested &&& visible q.role }).evalLines := by
  have htake := takeAttnEnable_ok (n := n) (s := s.receiveFrame n 0x7C tag payload) h
  rw [State.role_receiveFrame, (SameAttention.receiveFrame s).pendingSet] at htake
  exact exec_changed_port (k := .attnEnable) (a := accept _) hears rfl htake fun _ _ => rfl

end

/-! ### ATTN.TAKE (R192) -/

section
variable {s : State} {n : PortId} {tag : Byte} {payload : List Word}

theorem takeAttnTake_ok (h : fields payload = []) : takeAttnTake n payload s =
    ((s.modPort n fun q => { q with latched := q.latched &&& ~~~(s.pendingSet n) }).evalLines,
      accept (words2 (s.pendingSet n).toNat ++ words2 (s.port n).enabled.toNat)) := by
  rw [takeAttnTake, noFields_of_nil h]
  rfl

theorem exec_attnTake_error {a : Answer} (hears : s.hearsAny payload) (h : noFields payload = some a) :
    exec (.attnTake n tag payload) s = .next (s.answered n 0x7D tag payload a.code a.index a.words) := by
  refine exec_unchanged (k := .attnTake) hears rfl ?_
  dsimp only [taker, takeAttnTake]
  rw [h]

theorem exec_attnTake_ok (hears : s.hearsAny payload) (h : fields payload = []) :
    exec (.attnTake n tag payload) s =
      .next ((s.answered n 0x7D tag payload .ok 0
        (words2 (s.pendingSet n).toNat ++ words2 (s.port n).enabled.toNat)).modPort n
          fun q => { q with latched := q.latched &&& ~~~(s.pendingSet n) }).evalLines := by
  have htake := takeAttnTake_ok (n := n) (s := s.receiveFrame n 0x7D tag payload) h
  rw [State.enabled_receiveFrame, (SameAttention.receiveFrame s).pendingSet] at htake
  exact exec_changed_port (k := .attnTake) (a := accept _) hears rfl htake fun _ _ => rfl

/-- A take returns every latched kind, so that none stays latched. -/
theorem State.latched_minus_pending (s : State) (n : PortId) : (s.port n).latched &&& ~~~(s.pendingSet n) = 0 := by
  refine kindSet_ext fun e => ?_
  rw [hasKind_and, hasKind_not, hasKind_pendingSet, State.pendingOn]
  exact ⟨fun ⟨hlatched, hpending⟩ => absurd (.inl hlatched) hpending, fun h => absurd h (hasKind_zero e)⟩

end

end Sys2Proof.Machine

/-! ### The statements -/

open Sys2Proof Sys2Proof.Machine

/-- Settles O51: the parse decides which answer is given; an accepted one enables the requested kinds that the role may
see, and leaves what is pending. -/
theorem attnEnableReplacesEnabledSet : Obligations.AttnEnableReplacesEnabledSet := by
  unfold Obligations.AttnEnableReplacesEnabledSet
  intro s n tag payload hears
  refine ⟨fun h => exec_attnEnable_error hears (attnEnableParse_tooFew h),
    fun f g rest h => exec_attnEnable_error hears (attnEnableParse_second h), fun f h => ⟨fun hv => ?_, ?_⟩⟩
  · exact exec_attnEnable_error hears ((attnEnableParse_one h).trans (if_pos hv))
  · intro hv enabled pending a henabled hpending ha
    have hsame : SameAttention s a := ha ▸ .answered
    have hparse := (attnEnableParse_one h).trans (if_neg hv.not_gt)
    have hset : BitVec.ofNat 17 f.value &&& visible (s.port n).role = enabled :=
      kindSet_ext fun e => by rw [hasKind_and, hasKind_ofNat, hasKind_visible, henabled]
    have hexec := exec_attnEnable_ok (n := n) (tag := tag) hears hparse
    rw [hset, State.pendingSet_eq hpending, ← ha] at hexec
    obtain ⟨hframe, hlines, hports⟩ := modPort_evalLines_spec a n _ (hsame.inReset.trans hears.1)
    refine ⟨_, hexec, hframe, hlines, fun m => (hports m).trans ?_⟩
    obtain ⟨hrole, -, hkept, -⟩ := hsame.ports m
    rw [State.port_modPort]
    split
    · rename_i hm
      subst hm
      simp only [hrole, hset]
    · rw [← hkept]

/-- Settles O52: a take answers both sets, and what it answers as pending holds every latched kind. -/
theorem attnTakeReadsAndClearsPending : Obligations.AttnTakeReadsAndClearsPending := by
  unfold Obligations.AttnTakeReadsAndClearsPending
  intro s n tag payload hears
  refine ⟨fun f rest h => exec_attnTake_error hears (noFields_of_field h), ?_⟩
  intro h pending a hpending ha
  have hsame : SameAttention s a := ha ▸ .answered
  have hexec := exec_attnTake_ok (n := n) (tag := tag) hears h
  have hset := s.latched_minus_pending n
  rw [State.pendingSet_eq hpending] at hexec hset
  rw [← ha] at hexec
  obtain ⟨hframe, hlines, hports⟩ := modPort_evalLines_spec a n _ (hsame.inReset.trans hears.1)
  refine ⟨_, hexec, hframe, hlines, fun m => (hports m).trans ?_⟩
  obtain ⟨-, hkept, -, -⟩ := hsame.ports m
  rw [State.port_modPort]
  split
  · rename_i hm
    subst hm
    simp only [hkept, hset]
  · rw [← hkept]

end

section
/-! PROOFS. What a step can do, said once: every command is a run of changes, each one operation of a block, and a
property that every change keeps is kept by every step. The position stays lawful. -/

namespace Sys2Proof.Machine

/-- Two states agree in all that the step invariants read: not in the ports, the ring but its fault list, the oven, the
cure profile, the encoder's registers, and the queue of commands. -/
structure SameBlocks (s t : State) : Prop where
  p : t.pos.p = s.pos.p := by rfl
  still : t.pos.still = s.pos.still := by rfl
  motion : t.pos.motion = s.pos.motion := by rfl
  line : t.line = s.line := by rfl
  screens : t.screens = s.screens := by rfl
  phase : t.phase = s.phase := by rfl
  planned : t.planned = s.planned := by rfl
  faults : t.ring.faults = s.ring.faults := by rfl
  web : t.web = s.web := by rfl
  reports : t.reports = s.reports := by rfl

/-- One operation of a block, with what its checks have made sure of. -/
inductive Change : State → State → Prop
  | same {s t : State} (h : SameBlocks s t) : Change s t
  | reset (s : State) : Change s State.reset
  | cycle (s : State) : Change s s.driveCycle
  | turnaround (reply : ScreenId → Option DriveReply) (s : State) : Change s (s.turnaround reply)
  | doses (s : State) : Change s s.addDoses
  | seam (s : State) : Change s s.seamPulse
  | line {payload : List Word} {x : LineSettings} {s : State} (h : linePutParse payload s = .ok x) :
    Change s (s.putLine x)
  | record {payload : List Word} {fs rest : List Field} {r : StructRecord} {s : State} (j : ScreenId)
    (hparse : parseRecord payload s fs = .ok (r, rest)) (hpass : recordRefusal s j r = none) : Change s (s.putRecord j r)
  | tuning {payload : List Word} {fs rest : List Field} {x : Tuning} (j : ScreenId) (s : State)
    (h : parseTuning payload fs = .ok (x, rest)) : Change s (s.modScreen j fun y => { y with tuning := x })
  | stretch (v : Int) (s : State) : Change s (s.stageStretch (clamp (-2048) 2048 v))
  | align {payload : List Word} {a : ScreenId} {s : State} (h : groupAlignParse payload s = .ok a) :
    Change s (s.alignGroup a)
  | engage {payload : List Word} {k : ScreenId} {s : State} (h : engageParse payload s = .ok k) : Change s (s.engage k)
  | lift (k : ScreenId) (s : State) : Change s (s.lift k)
  | faultTaken {e : FaultEntry} {rest : List FaultEntry} {s : State} (h : s.ring.faults = e :: rest) :
    Change s (s.withRing { s.ring with faults := rest })
  | clear {payload : List Word} {k : ScreenId} {s : State} (h : screenClearParse payload s = .ok k) :
    Change s (s.clear k)
  | runBegin {s : State} (h : s.runBeginReason = none) : Change s s.runBegin
  | runDrain {s : State} (h : s.web.lineState = .run) : Change s s.runDrain
  | runAbort (s : State) : Change s s.runAbort
  | report {r : RegReport} {g : Segment} {s : State} (v : Int) (h : regReportAccept r s = .ok g) :
    Change s (s.report r.seq r.screen v)
  | reportTaken {r : Report} {rest : List Report} {s : State} (h : s.reports = r :: rest) :
    Change s (s.withReports rest)

/-- A run of changes. -/
def Changes (s t : State) : Prop := Relation.ReflTransGen Change s t

theorem Changes.refl (s : State) : Changes s s := Relation.ReflTransGen.refl

theorem Changes.one {s t : State} (h : Change s t) : Changes s t := Relation.ReflTransGen.single h

theorem Changes.trans {s t u : State} (h1 : Changes s t) (h2 : Changes t u) : Changes s u :=
  Relation.ReflTransGen.trans h1 h2

/-- A property that every change keeps holds after a run of changes. -/
theorem Changes.keeps {inv : State → Prop} (hinv : ∀ {s t}, Change s t → inv s → inv t) {s t : State}
    (h : Changes s t) (hs : inv s) : inv t := by
  induction h with
  | refl => exact hs
  | tail _ hchange ih => exact hinv hchange ih

theorem Changes.same {s t : State} (h : SameBlocks s t) : Changes s t := .one (.same h)

theorem SameBlocks.evalLines (s : State) : SameBlocks s s.evalLines := {}

theorem SameBlocks.withOven (s : State) (v : ZoneTable) : SameBlocks s (s.withOven v) := {}

theorem SameBlocks.of_ports (s : State) (v : Vector Port 4) : SameBlocks s (s.withPorts v) := {}

theorem SameBlocks.latchIf (c : Bool) (e : EventKind) (s : State) : SameBlocks s (s.latchIf c e) := by
  cases c <;> exact {}

/-! ### The requests -/

section
variable {s : State} {n : PortId} {kind tag : Byte} {payload : List Word}

theorem putRecords_changes (payload : List Word) (n : Nat) (j : ScreenId) (m : Nat) (fs : List Field) (s : State) :
    Changes s (putRecords payload n j m fs s).1 := by
  induction n generalizing j m fs s with
  | zero => exact .refl s
  | succ n ih =>
    unfold putRecords
    split
    · exact .refl s
    · split
      · exact .refl s
      · rename_i hparse
        split
        · exact .refl s
        · rename_i hpass
          exact (Changes.one (.record j hparse hpass)).trans (ih _ _ _ _)

theorem tuneRecords_changes (payload : List Word) (n : Nat) (j : ScreenId) (m : Nat) (fs : List Field) (s : State) :
    Changes s (tuneRecords payload n j m fs s).1 := by
  induction n generalizing j m fs s with
  | zero => exact .refl s
  | succ n ih =>
    unfold tuneRecords
    split
    · exact .refl s
    · split
      · exact .refl s
      · rename_i hparse
        exact (Changes.one (.tuning j s hparse)).trans (ih _ _ _ _)

/-- A block that takes a request makes no change, or those of its operation. -/
theorem taker_changes (k : Kind) (n : PortId) (payload : List Word) (s : State) :
    Changes s (taker k n payload s).1 := by
  cases k with
  | segmentGet | webWhere | zoneContents | rollGet => exact .refl s
  | statusGet | zonePut | curePut =>
    dsimp only [taker, takeStatusGet, takeZonePut, takeCurePut]
    split
    · exact .refl s
    · exact .same {}
  | screenGet =>
    dsimp only [taker, takeScreenGet, State.groupWords]
    split
    · exact .refl s
    · split <;> exact .same {}
  | attnEnable | attnTake =>
    dsimp only [taker, takeAttnEnable, takeAttnTake]
    split
    · exact .refl s
    · exact .same {}
  | zoneSample =>
    dsimp only [taker, takeZoneSample]
    split
    · exact .refl s
    · exact (Changes.same (.withOven s _)).trans ((Changes.same (.latchIf _ _ _)).trans (.same (.evalLines _)))
  | linePut =>
    dsimp only [taker, takeLinePut]
    split
    · exact .refl s
    · rename_i h; exact .one (.line h)
  | stretchSet =>
    dsimp only [taker, takeStretchSet]
    split
    · exact .refl s
    · exact .one (.stretch _ s)
  | groupAlign =>
    dsimp only [taker, takeGroupAlign]
    split
    · exact .refl s
    · rename_i h; exact .one (.align h)
  | engage =>
    dsimp only [taker, takeEngage]
    split
    · exact .refl s
    · rename_i h; exact .one (.engage h)
  | lift =>
    dsimp only [taker, takeLift]
    split
    · exact .refl s
    · exact .one (.lift _ s)
  | screenClear =>
    dsimp only [taker, takeScreenClear]
    split
    · exact .refl s
    · rename_i h; exact .one (.clear h)
  | faultTake =>
    dsimp only [taker, takeFaultTake]
    split
    · exact .refl s
    · split
      · exact .refl s
      · rename_i h; exact (Changes.one (.faultTaken h)).trans (.same (.evalLines _))
  | reportTake =>
    dsimp only [taker, takeReportTake]
    split
    · exact .refl s
    · split
      · exact .refl s
      · rename_i h; exact (Changes.one (.reportTaken h)).trans (.same (.evalLines _))
  | runBegin =>
    dsimp only [taker, takeRunBegin]
    split
    · exact .refl s
    · split
      · exact .refl s
      · rename_i h; exact .one (.runBegin h)
  | runDrain =>
    dsimp only [taker, takeRunDrain]
    split
    · exact .refl s
    · split
      · exact .refl s
      · rename_i h; exact .one (.runDrain (not_not.mp h))
  | runAbort =>
    dsimp only [taker, takeRunAbort]
    split
    · exact .refl s
    · split
      · exact .refl s
      · exact .one (.runAbort s)
  | regReport =>
    dsimp only [taker, takeRegReport]
    split
    · exact .refl s
    · split
      · exact .refl s
      · rename_i h; exact .one (.report _ h)
  | screenPut =>
    dsimp only [taker, takeScreenPut]
    split
    · exact .same {}
    · exact .refl s
    · exact putRecords_changes payload _ _ _ _ s
  | screenTune =>
    dsimp only [taker, takeScreenTune]
    split
    · exact .same {}
    · exact .refl s
    · exact tuneRecords_changes payload _ _ _ _ s

/-! ### Frames at the ports -/

theorem answerRequest_changes (k : Kind) : Changes s (answerRequest k (taker k) n tag payload s) := by
  unfold answerRequest
  split
  · exact (taker_changes k n payload s).trans (.same (.of_ports _ _))
  · exact .same (.of_ports _ _)

theorem requestFrame_changes (k : Kind) : Changes s (requestFrame k (taker k) n tag payload s) := by
  unfold requestFrame
  split
  · exact .refl s
  · split
    · exact (Changes.same (.of_ports _ _)).trans (answerRequest_changes k)
    · exact .same (.of_ports _ _)

theorem frameGood_changes : Changes s (frameGood n kind tag payload s) := by
  unfold frameGood
  split
  · exact .same (.of_ports _ _)
  · split
    · exact .same (.of_ports _ _)
    · exact answerRequest_changes _

theorem wholeFrame_changes : Changes s (wholeFrame n kind tag payload s) := by
  unfold wholeFrame
  split
  · exact .refl s
  · split
    · exact (Changes.same (.of_ports _ _)).trans frameGood_changes
    · exact .same (.of_ports _ _)

theorem State.completeWord_changes (w : Word) : Changes s (s.completeWord n w) := by
  unfold State.completeWord
  split
  · exact .refl s
  · split
    · split
      · exact (Changes.same (.of_ports _ _)).trans frameGood_changes
      · exact .same (.of_ports _ _)
    · exact .same (.of_ports _ _)

end

/-! ### The events of the part, and a step -/

/-- An edge moves neither P nor what R8 keeps beside it. -/
theorem SameBlocks.edge (a b : Bool) (s : State) : SameBlocks s (s.withPos (s.pos.edge a b)) := by
  rw [Position.edge_eq]
  exact {}

theorem State.doseTick_changes (s : State) : Changes s s.ageZones.addDoses.evalLines := by
  have hages : Changes s s.ageZones :=
    (Changes.same (.withOven s _)).trans ((Changes.same (.latchIf _ _ _)).trans (.same (.latchIf _ _ _)))
  exact (hages.trans (.one (.doses _))).trans (.same (.evalLines _))

/-- Every command goes on, by a run of changes. -/
theorem exec_changes (c : Instr) (s : State) : ∃ t : State, exec c s = .next t ∧ Changes s t := by
  cases c with
  | resetAssert => exact ⟨_, rfl, .same {}⟩
  | resetRelease => exact ⟨_, rfl, (Changes.one (.reset s)).trans (.same {})⟩
  | encoderEdge =>
    refine ⟨_, rfl, ?_⟩
    split
    · exact .same {}
    · exact .same (.edge _ _ s)
  | driveCycle =>
    refine ⟨_, rfl, ?_⟩
    split
    · exact .refl s
    · exact .one (.cycle s)
  | ringFrameReturn =>
    refine ⟨_, rfl, ?_⟩
    split
    · exact .refl s
    · split
      · exact .refl s
      · split
        · exact .one (.turnaround _ s)
        · exact .refl s
  | turnaroundExpiry =>
    refine ⟨_, rfl, ?_⟩
    split
    · exact .refl s
    · split
      · exact .refl s
      · exact .one (.turnaround _ s)
  | doseTick =>
    refine ⟨_, rfl, ?_⟩
    split
    · exact .refl s
    · exact s.doseTick_changes
  | seamPulse =>
    refine ⟨_, rfl, ?_⟩
    split
    · exact .refl s
    · exact .one (.seam s)
  | frameBroken port how =>
    cases how with
    | released => exact ⟨_, rfl, .same (.of_ports _ _)⟩
    | checkWord word => exact ⟨_, rfl, State.completeWord_changes word⟩
  | kindRefused | fetch => exact ⟨_, rfl, wholeFrame_changes⟩
  | selectAsserted | selectReleased => exact ⟨_, rfl, .same (.of_ports _ _)⟩
  | wordCompleted port word => exact ⟨_, rfl, State.completeWord_changes word⟩
  | linePut | screenPut | screenTune | screenGet | stretchSet | groupAlign | engage | lift | faultTake | screenClear
  | runBegin | runDrain | runAbort | segmentGet | webWhere | regReport | zonePut | zoneSample | curePut | zoneContents
  | reportTake | rollGet | statusGet | attnEnable | attnTake => exact ⟨_, rfl, requestFrame_changes _⟩

/-- A step is a run of changes. -/
theorem step_changes {s t : State} (h : step s = .next t) : Changes s t := by
  unfold step at h
  split at h
  · cases h
    exact .refl s
  · obtain ⟨u, hexec, hu⟩ := exec_changes _ (s.withPending _)
    cases hexec.symm.trans h
    exact (Changes.same {}).trans hu

/-- A property that every change keeps is kept by every step. -/
theorem keptByStep_of_change {inv : State → Prop} (h : ∀ {s t}, Change s t → inv s → inv t) : KeptByStep inv :=
  fun _ _ hs hstep => (step_changes hstep).keeps h hs

end Sys2Proof.Machine
end

section
/-! PROOFS. The position stays lawful. -/

namespace Sys2Proof.Machine

/-! ### What the changes leave of the rest -/

theorem PlanOnly.liftPlanned (s : State) : PlanOnly s s.liftPlanned := PlanOnly.liftAll s _

theorem WebOnly.seamPulse (s : State) : ∃ u, WebOnly s u ∧ SameBlocks u s.seamPulse := by
  rcases s.seamPulse_cases with ⟨-, h⟩ | ⟨-, -, -, -, h⟩ | ⟨-, -, -, -, h⟩ <;> rw [h]
  · exact ⟨s, .refl s, {}⟩
  · exact ⟨_, .latch _ s, .evalLines _⟩
  · exact ⟨_, .recordSeam _ s, .evalLines _⟩

theorem WebOnly.pos {s t : State} (h : WebOnly s t) : t.pos = s.pos := by rw [h.1]

theorem PlanOnly.pos {s t : State} (h : PlanOnly s t) : t.pos = s.pos := by rw [h.1]

theorem State.runDrain_pos (s : State) : s.runDrain.pos = s.pos :=
  ((WebOnly.drainIfEmpty _).pos.trans (PlanOnly.liftPlanned _).pos :)

theorem State.seamPulse_p (s : State) : s.seamPulse.pos.p = s.pos.p ∧ s.seamPulse.pos.still = s.pos.still
    ∧ s.seamPulse.pos.motion = s.pos.motion := by
  obtain ⟨u, hweb, hsame⟩ := WebOnly.seamPulse s
  rw [hsame.p, hsame.still, hsame.motion, hweb.pos]
  exact ⟨rfl, rfl, rfl⟩

/-- P, the still counter and the motion state move in a drive cycle and at reset alone. -/
theorem Change.pos_cases {s t : State} (h : Change s t) :
    (t.pos.p = s.pos.p ∧ t.pos.still = s.pos.still ∧ t.pos.motion = s.pos.motion) ∨ t.pos = s.pos.advance
      ∨ t.pos = .reset := by
  cases h with
  | same h => exact .inl ⟨h.p, h.still, h.motion⟩
  | reset => exact .inr (.inr rfl)
  | cycle => exact .inr (.inl s.driveCycle_pos)
  | turnaround reply => rw [State.turnaround_frame]; exact .inl ⟨rfl, rfl, rfl⟩
  | seam => exact .inl s.seamPulse_p
  | engage => rw [State.engage_eq]; exact .inl ⟨rfl, rfl, rfl⟩
  | lift => rw [State.lift_eq]; exact .inl ⟨rfl, rfl, rfl⟩
  | runDrain => rw [State.runDrain_pos]; exact .inl ⟨rfl, rfl, rfl⟩
  | runAbort => rw [State.runAbort_eq]; exact .inl ⟨rfl, rfl, rfl⟩
  | record j => unfold State.putRecord; split <;> exact .inl ⟨rfl, rfl, rfl⟩
  | report v => rw [State.report_eq]; simp [State.storeReport]
  | _ => exact .inl ⟨rfl, rfl, rfl⟩

/-- The advance of a drive cycle keeps P within its bounds and the still counter with its motion state (R6, R8). -/
theorem Position.advance_lawful (x : Position) (hstill : x.still ≤ 200) (hmotion : x.motion = .still ↔ x.still = 200) :
    0 ≤ x.advance.p ∧ x.advance.p ≤ 1099511627775 ∧ x.advance.still ≤ 200
      ∧ (x.advance.motion = .still ↔ x.advance.still = 200) := by
  have hp := clamp_mem (by decide : (0 : Int) ≤ topP) (x.p + x.clamped)
  rw [x.advance_p]
  refine ⟨hp.1, hp.2, ?_⟩
  by_cases h : x.newP = x.p
  · obtain ⟨hs, hm⟩ := x.advance_of_still h
    rw [hs, hm]
    refine ⟨by omega, ?_⟩
    split
    · simp only [true_iff]; omega
    · rw [hmotion]; omega
  · obtain ⟨hs, hm⟩ := x.advance_of_moved h
    rw [hs, hm]
    simp

theorem Change.positionLawful {s t : State} (h : Change s t) (hs : s.PositionLawful) : t.PositionLawful := by
  obtain ⟨hlow, hhigh, hstill, hmotion⟩ := hs
  unfold State.PositionLawful
  rcases h.pos_cases with ⟨hp, hst, hmo⟩ | hadv | hreset
  · rw [hp, hst, hmo]
    exact ⟨hlow, hhigh, hstill, hmotion⟩
  · rw [hadv]
    exact s.pos.advance_lawful hstill hmotion
  · rw [hreset]
    decide

end Sys2Proof.Machine

/-! ### The statement -/

open Sys2Proof Sys2Proof.Machine

/-- Settles O55: only a drive cycle and a reset move what the statement speaks of. -/
theorem positionStaysLawful : Obligations.PositionStaysLawful := keptByStep_of_change Change.positionLawful

end

section
/-! PROOFS. The channel advance of a drive cycle, channel by channel: each touches its own screen alone, in a state that
differs from the one after channel 0 in other screens, printed sets, faults and latched sets. -/

namespace Sys2Proof.Machine

/-! ### Design coordinates depend on structure and applied trims alone -/

/-- Two screens agree in what groups and effective trims are formed from. -/
structure Screen.SameTrim (x y : Screen) : Prop where
  present : y.present = x.present := by rfl
  kind : y.kind = x.kind := by rfl
  ext : y.ext = x.ext := by rfl
  applied : y.chan.applied = x.chan.applied := by rfl

/-- The anchor of a group is found by presence and kind alone (R17). -/
theorem anchorOf_congr {t t' : Vector Screen 24} (h : ∀ k : ScreenId, t'[k].present = t[k].present ∧ t'[k].kind = t[k].kind)
    (k : ScreenId) : anchorOf t' k = anchorOf t k := by
  have hfilter : (fun a : ScreenId => decide (a ≤ k) && t'[a].present && t'[a].kind == .anchor)
      = fun a : ScreenId => decide (a ≤ k) && t[a].present && t[a].kind == .anchor := by
    funext a
    rw [(h a).1, (h a).2]
  unfold anchorOf
  rw [(h k).1, hfilter]

theorem effTrim_congr {t t' : Vector Screen 24} (h : ∀ k : ScreenId, t[k].SameTrim t'[k]) (k : ScreenId) :
    effTrim t' k = effTrim t k := by
  unfold effTrim
  rw [anchorOf_congr fun a => ⟨(h a).present, (h a).kind⟩, (h k).present, (h k).kind, (h k).applied]
  cases t[k].kind with
  | anchor => rfl
  | relative =>
    cases anchorOf t k with
    | none => rfl
    | some a => simp only [(h a).ext, (h k).ext, (h a).applied]

theorem State.design_congr {s t : State} (hp : t.pos.p = s.pos.p) (h : ∀ k, (s.screen k).SameTrim (t.screen k))
    (hdist : ∀ k, (t.screen k).dist = (s.screen k).dist) (k : ScreenId) : t.design k = s.design k := by
  unfold State.design
  rw [hp, hdist, effTrim_congr h]

theorem WebOnly.ring {s t : State} (h : WebOnly s t) : t.ring = s.ring := by rw [h.1]

/-! ### A crossing (R60 to R63) -/

/-- What a forward crossing makes of an engagement record, the seq entered being given. -/
def Screen.crossed (entered : Nat) (x : Screen) : Engagement :=
  match x.eng.state with
  | .lowering => if isLowered x.last then { x.eng with state := .printing } else x.eng.fault .late
  | .ending => if x.eng.stopSeq ≤ entered then { x.eng with state := .parked } else x.eng
  | .absent | .parked | .armed | .printing | .faulted => x.eng

/-- Whether a screen is down (R61). -/
def EngState.down : EngState → Bool
  | .printing | .ending => true
  | .absent | .parked | .armed | .lowering | .faulted => false

/-- Whether a forward crossing of a screen finds its drive late (R63). -/
def Screen.late (x : Screen) : Bool := x.eng.state == .lowering && !isLowered x.last

/-- Between two states the screens differ in engagement records alone, and P stands. -/
theorem EngOnly.design {s t : State} (h : EngOnly s t) (k : ScreenId) : t.design k = s.design k := by
  refine State.design_congr ?_ (fun j => ?_) (fun j => ?_) k
  · rw [h.frame]
  · rw [h.screen j]; exact {}
  · rw [h.screen j]

theorem State.mark_screen (k j : ScreenId) (b : Bool) (s : State) : (s.mark k b).screen j = s.screen j := by
  unfold State.mark
  split <;> rfl

/-- A crossing rewrites the engagement record of its screen alone. -/
theorem State.cross_screen (k j : ScreenId) (b : Bool) (s : State) :
    (s.cross k b).screen j =
      if j = k then { s.screen k with eng := (s.screen k).crossed (s.enteredSeq k b) } else s.screen j := by
  have hsame : s.screen j = if j = k then { s.screen k with eng := (s.screen k).eng } else s.screen j := by
    split
    · rename_i h; rw [h]
    · rfl
  have hfault : ∀ (c : FaultCause) (seq : Nat), s.engState k = .lowering → (s.screenFault k c seq).screen j =
      if j = k then { s.screen k with eng := (s.screen k).eng.fault c } else s.screen j := by
    intro c seq h
    rw [(EngOnly.screenFault k c seq s).screen j, State.screenFault_eng]
    by_cases hj : j = k
    · simp [hj, h]
    · simp [hj]
  unfold State.cross Screen.crossed
  rw [show (s.screen k).eng.state = s.engState k from rfl]
  cases hk : s.engState k with
  | lowering =>
    dsimp only
    split
    · rw [State.mark_screen, State.screen_modEng]
    · exact hfault _ _ hk
  | ending =>
    dsimp only
    split
    · rw [State.screen_modEng]
    · rw [State.mark_screen]; exact hsame
  | printing => rw [State.mark_screen]; exact hsame
  | absent | parked | armed | faulted => exact hsame

/-- A crossing marks the segment entered exactly where its screen is down after it, and not on new ground (R61). -/
theorem State.cross_queue (k : ScreenId) (b : Bool) (s : State) :
    (s.cross k b).web.queue =
      if b = false ∧ ((s.screen k).crossed (s.enteredSeq k b)).state.down = true then markIn k (s.design k) s.web.queue
      else s.web.queue := by
  have hmark : ∀ u : State, EngOnly s u → u.web = s.web →
      (u.mark k b).web.queue = if b = false then markIn k (s.design k) s.web.queue else s.web.queue := by
    intro u hu hweb
    unfold State.mark
    cases b with
    | true => simp [hweb]
    | false => simp [hu.design, hweb]
  unfold State.cross Screen.crossed
  rw [show (s.screen k).eng.state = s.engState k from rfl]
  cases hk : s.engState k with
  | lowering =>
    dsimp only
    split
    · rw [hmark _ (EngOnly.modEng k _ s) rfl]; simp [EngState.down]
    · have : (s.screenFault k .late (s.enteredSeq k b)).web.queue = s.web.queue := by
        unfold State.screenFault State.engageFault
        simp [hk]
      simp [this, Engagement.fault, EngState.down]
  | ending =>
    dsimp only
    have he : (s.screen k).eng.state = .ending := hk
    split
    · simp [EngState.down]
    · rw [hmark s (EngOnly.refl s) rfl]; simp [EngState.down, he]
  | printing =>
    have he : (s.screen k).eng.state = .printing := hk
    dsimp only
    rw [hmark s (EngOnly.refl s) rfl]; simp [EngState.down, he]
  | absent | parked | armed | faulted =>
    have he : (s.screen k).eng.state = _ := hk
    simp [EngState.down, he]

/-- A crossing enters a fault exactly for a late drive (R63). -/
theorem State.cross_faults (k : ScreenId) (b : Bool) (s : State) :
    (s.cross k b).ring.faults =
      if (s.screen k).late then
        enterFault { screen := k, cause := .late, seq := s.enteredSeq k b, p := s.pos.p, repeats := 1 } s.ring.faults
      else s.ring.faults := by
  have hmark : ∀ u : State, (u.mark k b).ring = u.ring := by
    intro u; unfold State.mark; split <;> rfl
  unfold State.cross Screen.late
  rw [show (s.screen k).eng.state = s.engState k from rfl]
  cases hk : s.engState k with
  | lowering =>
    dsimp only
    split
    · rename_i h; rw [hmark]; simp [h]
    · rename_i h; rw [State.screenFault_faults]; simp [hk, h]
  | ending => dsimp only; split <;> simp [hmark]
  | printing => simp [hmark]
  | absent | parked | armed | faulted => simp

/-- A late drive found at a crossing latches SCREEN_FAULT (R63, R79). -/
theorem State.cross_screenFault {k : ScreenId} {b : Bool} {s : State} (h : (s.screen k).late = true) (n : PortId)
    (hsees : (s.port n).role.sees .screenFault) : hasKind ((s.cross k b).port n).latched .screenFault := by
  simp only [Screen.late, Bool.and_eq_true, beq_iff_eq, Bool.not_eq_true'] at h
  obtain ⟨hstate, hlast⟩ := h
  have hk : s.engState k = .lowering := hstate
  unfold State.cross
  simp only [hk, hlast, Bool.false_eq_true, if_false]
  unfold State.screenFault
  rw [if_neg (by rw [hk]; decide)]
  rw [State.hasKind_latchIf]
  refine .inr ⟨by simp [hk], rfl, ?_⟩
  rw [State.port_withRing, ((EngOnly.engageFault k .late s).latches.keeps n).1]
  exact hsees

/-! ### One channel's advance (R36 to R43) -/

/-- A channel after its accumulator has become `rho`, a crossing taking this length (R36 to R39). -/
def Channel.advanced (rho newLength : Int) (c : Channel) : Channel :=
  if c.lcur ≤ rho then c.forward rho newLength
  else if rho < 0 then c.backward rho newLength
  else { c with r := rho }

/-- Channel k makes a forward crossing by Δw, and it hands new ground over (R38). -/
def State.breaksGround (s : State) (k : ScreenId) (dw : Int) : Prop :=
  (s.screen k).present = true ∧ (s.screen k).chan.lcur ≤ (s.screen k).chan.r + dw ∧ s.newGround k = true

theorem State.newGround_key {s : State} {k : ScreenId} (h : s.newGround k = true) : k = 0 := by
  simp only [State.newGround, Bool.and_eq_true, beq_iff_eq] at h
  exact h.1.1

/-- The length that a crossing of channel k by Δw takes (R37 to R40). -/
def State.crossingLength (s : State) (k : ScreenId) (dw : Int) : Int :=
  if (s.screen k).chan.lcur ≤ (s.screen k).chan.r + dw ∧ s.newGround k = true then s.phase.lFab else s.lengthUnder k

/-- A screen after its channel advances by Δw in state s (R36 to R39, R60 to R63). -/
def State.advancedScreen (s : State) (k : ScreenId) (dw : Int) : Screen :=
  { s.screen k with
    chan := (s.screen k).chan.advanced ((s.screen k).chan.r + dw) (s.crossingLength k dw)
    eng := if (s.screen k).chan.lcur ≤ (s.screen k).chan.r + dw then
        (s.screen k).crossed (s.enteredSeq k (s.newGround k))
      else (s.screen k).eng }

/-- Rewriting the places of a channel leaves every effective trim. -/
theorem State.design_modChan {k : ScreenId} {f : Channel → Channel} {s : State}
    (h : (f (s.screen k).chan).applied = (s.screen k).chan.applied) (j : ScreenId) :
    (s.modChan k f).design j = s.design j := by
  refine State.design_congr (s := s) (t := s.modChan k f) rfl (fun m => ?_) (fun m => ?_) j <;> rw [State.screen_modChan] <;> split
  · rename_i hm; subst hm; exact { applied := h }
  · exact {}
  · rename_i hm; subst hm; rfl
  · rfl

theorem State.enteredSeq_modChan {k : ScreenId} {f : Channel → Channel} {s : State}
    (h : (f (s.screen k).chan).applied = (s.screen k).chan.applied) (b : Bool) :
    (s.modChan k f).enteredSeq k b = s.enteredSeq k b := by
  unfold State.enteredSeq
  rw [State.design_modChan h]
  rfl

/-- On new ground the seq entered is the next one, whatever the screens are. -/
theorem State.enteredSeq_true (k : ScreenId) (s : State) : s.enteredSeq k true = s.web.nextSeq := rfl

/-- A channel's advance rewrites its own screen alone, and nothing for an ABSENT one. -/
theorem State.advanceChannel_screen (k j : ScreenId) (dw : Int) (s : State) :
    (s.advanceChannel k dw).screen j =
      if j = k ∧ (s.screen k).present = true then s.advancedScreen k dw else s.screen j := by
  rcases State.advanceChannel_cases k dw s with ⟨hp, h⟩ | ⟨hp, hle, h⟩ | ⟨hp, hlt, hneg, h⟩ | ⟨hp, hlt, hpos, h⟩ <;> rw [h]
  · simp [hp]
  · by_cases hg : s.newGround k = true
    · have hk := State.newGround_key hg
      subst hk
      rw [if_pos hg]
      unfold State.keyCrossing
      rw [(WebOnly.create _).screen, State.cross_screen]
      by_cases hj : j = 0
      · simp [hj, hp, State.advancedScreen, Channel.advanced, State.crossingLength, hg, hle, State.enteredSeq_true,
          Screen.crossed, State.screen_modChan]
      · simp [hj, State.screen_modChan]
    · rw [if_neg hg, State.cross_screen, State.enteredSeq_modChan rfl]
      by_cases hj : j = k
      · simp [hj, hp, State.advancedScreen, Channel.advanced, State.crossingLength, hg, hle, Screen.crossed,
          State.screen_modChan]
      · simp [hj, State.screen_modChan]
  · by_cases hj : j = k
    · simp [hj, hp, State.advancedScreen, Channel.advanced, State.crossingLength, hneg, not_le.mpr hlt,
        State.screen_modChan]
    · simp [hj, State.screen_modChan]
  · by_cases hj : j = k
    · simp [hj, hp, State.advancedScreen, Channel.advanced, not_le.mpr hlt, not_lt.mpr hpos, State.screen_modChan]
    · simp [hj, State.screen_modChan]

/-- A channel's advance enters a fault exactly at a forward crossing with a late drive (R63). -/
theorem State.advanceChannel_faults (k : ScreenId) (dw : Int) (s : State) :
    (s.advanceChannel k dw).ring.faults =
      if (s.screen k).present = true ∧ (s.screen k).chan.lcur ≤ (s.screen k).chan.r + dw ∧ (s.screen k).late = true then
        enterFault { screen := k, cause := .late, seq := s.enteredSeq k (s.newGround k), p := s.pos.p, repeats := 1 }
          s.ring.faults
      else s.ring.faults := by
  have hlate : ∀ f : Channel → Channel, ((s.modChan k f).screen k).late = (s.screen k).late := by
    intro f; simp [State.screen_modChan, Screen.late]
  rcases State.advanceChannel_cases k dw s with ⟨hp, h⟩ | ⟨hp, hle, h⟩ | ⟨hp, hlt, -, h⟩ | ⟨hp, hlt, -, h⟩ <;> rw [h]
  · simp [hp]
  · by_cases hg : s.newGround k = true
    · have hk := State.newGround_key hg
      subst hk
      rw [if_pos hg]
      unfold State.keyCrossing
      rw [(WebOnly.create _).ring, State.cross_faults]
      simp [hlate, hp, hle, hg, State.enteredSeq_true]
    · rw [if_neg hg, State.cross_faults, State.enteredSeq_modChan rfl]
      simp [hlate, hp, hle, hg]
  · simp [not_le.mpr hlt]
  · simp [not_le.mpr hlt]

/-- A channel's advance that breaks no ground marks the segment entered, where its screen is down after a forward
crossing, and leaves the queue otherwise (R61). -/
theorem State.advanceChannel_queue {k : ScreenId} {dw : Int} {s : State} (hground : ¬ s.breaksGround k dw) :
    (s.advanceChannel k dw).web.queue =
      if (s.screen k).present = true ∧ (s.screen k).chan.lcur ≤ (s.screen k).chan.r + dw
          ∧ (s.advancedScreen k dw).eng.state.down = true then markIn k (s.design k) s.web.queue
      else s.web.queue := by
  rcases State.advanceChannel_cases k dw s with ⟨hp, h⟩ | ⟨hp, hle, h⟩ | ⟨hp, hlt, -, h⟩ | ⟨hp, hlt, -, h⟩ <;> rw [h]
  · simp [hp]
  · have hg : s.newGround k = false := by
      by_contra hg
      exact hground ⟨hp, hle, by simpa using hg⟩
    rw [if_neg (by simp [hg]), State.cross_queue, State.design_modChan rfl, State.enteredSeq_modChan rfl]
    have heng : ((s.modChan k (Channel.forward ((s.screen k).chan.r + dw) (s.lengthUnder k))).screen k).crossed
        (s.enteredSeq k false) = (s.advancedScreen k dw).eng := by
      simp [State.advancedScreen, State.screen_modChan, Screen.crossed, hle, hg]
    rw [heng]
    simp [hp, hle]
  · simp [not_le.mpr hlt]
  · simp [not_le.mpr hlt]

/-! ### The other channels of a cycle (R36, R43) -/

/-- The screens differ in the places of their channels and in engagement records alone. -/
def ScreensAdvance (s t : State) : Prop :=
  ∀ j, t.screen j = { s.screen j with
    chan := { (s.screen j).chan with
      r := (t.screen j).chan.r, lcur := (t.screen j).chan.lcur, gear := (t.screen j).chan.gear, n := (t.screen j).chan.n }
    eng := (t.screen j).eng }

theorem ScreensAdvance.refl (s : State) : ScreensAdvance s s := fun _ => rfl

theorem ScreensAdvance.trans {s t u : State} (h1 : ScreensAdvance s t) (h2 : ScreensAdvance t u) : ScreensAdvance s u :=
  fun j => by rw [h2 j, h1 j]

theorem ScreensAdvance.of_eng {s t : State} (h : EngOnly s t) : ScreensAdvance s t := fun j => by rw [h.screen j]

theorem ScreensAdvance.of_web {s t : State} (h : WebOnly s t) : ScreensAdvance s t := fun j => by rw [h.screen j]

theorem Channel.advanced_eq (rho newLength : Int) (c : Channel) :
    c.advanced rho newLength = { c with
      r := (c.advanced rho newLength).r, lcur := (c.advanced rho newLength).lcur
      gear := (c.advanced rho newLength).gear, n := (c.advanced rho newLength).n } := by
  unfold Channel.advanced
  split_ifs <;> rfl

theorem ScreensAdvance.advanceChannel (k : ScreenId) (dw : Int) (s : State) :
    ScreensAdvance s (s.advanceChannel k dw) := by
  intro j
  rw [State.advanceChannel_screen]
  split
  · rename_i h
    rw [h.1]
    unfold State.advancedScreen
    dsimp only
    rw [Channel.advanced_eq]
  · rfl

theorem ScreensAdvance.design {s t : State} (h : ScreensAdvance s t) (hp : t.pos.p = s.pos.p) (k : ScreenId) :
    t.design k = s.design k :=
  State.design_congr hp (fun j => by rw [h j]; exact {}) (fun j => by rw [h j]) k

/-- What channel advances that break no ground may change. -/
structure AdvanceOnly (s t : State) : Prop where
  frame : t = { s with
    screens := t.screens, ring := { s.ring with faults := t.ring.faults }, web := { s.web with queue := t.web.queue },
    ports := t.ports }
  latches : Latches s t
  screens : ScreensAdvance s t
  queue : unprinted t.web.queue = unprinted s.web.queue

theorem AdvanceOnly.refl (s : State) : AdvanceOnly s s := ⟨rfl, Latches.refl s, .refl s, rfl⟩

theorem AdvanceOnly.trans {s t u : State} (h1 : AdvanceOnly s t) (h2 : AdvanceOnly t u) : AdvanceOnly s u where
  frame := by rw [h2.frame, h1.frame]
  latches := h1.latches.trans h2.latches
  screens := h1.screens.trans h2.screens
  queue := h2.queue.trans h1.queue

theorem AdvanceOnly.of_eng {s t : State} (h : EngOnly s t) : AdvanceOnly s t := ⟨h.frame, h.latches, .of_eng h, h.queue⟩

theorem AdvanceOnly.of_chan {s t : State} (h : t = s.withScreens t.screens) (hscreens : ScreensAdvance s t) :
    AdvanceOnly s t := ⟨by rw [h]; rfl, .of_ports (by rw [h]; rfl), hscreens, by rw [h]; rfl⟩

theorem AdvanceOnly.pos {s t : State} (h : AdvanceOnly s t) : t.pos = s.pos := by rw [h.frame]

theorem AdvanceOnly.design {s t : State} (h : AdvanceOnly s t) (k : ScreenId) : t.design k = s.design k :=
  h.screens.design (by rw [h.pos]) k

theorem AdvanceOnly.advanceChannel {k : ScreenId} {dw : Int} {s : State} (hground : ¬ s.breaksGround k dw) :
    AdvanceOnly s (s.advanceChannel k dw) := by
  have hscreens : ∀ f : Channel → Channel, s.advanceChannel k dw = s.modChan k f → AdvanceOnly s (s.modChan k f) :=
    fun f h => .of_chan rfl (h ▸ .advanceChannel k dw s)
  rcases State.advanceChannel_cases k dw s with ⟨-, h⟩ | ⟨hp, hle, h⟩ | ⟨-, -, -, h⟩ | ⟨-, -, -, h⟩
  · rw [h]; exact .refl s
  · have hg : s.newGround k = false := by
      by_contra hg
      exact hground ⟨hp, hle, by simpa using hg⟩
    rw [if_neg (by simp [hg])] at h
    have hframe : EngOnly (s.modChan k _) (s.advanceChannel k dw) := h ▸ EngOnly.cross k false _
    exact ⟨by rw [hframe.frame]; rfl, (Latches.of_ports rfl).trans hframe.latches, .advanceChannel k dw s, hframe.queue⟩
  · rw [h]; exact hscreens _ h
  · rw [h]; exact hscreens _ h

theorem State.not_breaksGround_of_ne {k : ScreenId} (h : k ≠ 0) (dw : Int) (s : State) : ¬ s.breaksGround k dw :=
  fun hg => h (State.newGround_key hg.2.2)

/-! ### What another channel's advance leaves of screen k -/

/-- The fault list entries of a screen. -/
def entriesOf (k : ScreenId) (l : List FaultEntry) : List FaultEntry := l.filter fun e => e.screen == k

/-- The marks of a screen in the printed sets of a queue. -/
def marksOf (k : ScreenId) (q : List Segment) : List Bool := q.map fun g => inSet g.printed k

theorem entriesOf_enterFault_ne {k : ScreenId} {e : FaultEntry} (h : e.screen ≠ k) (l : List FaultEntry) :
    entriesOf k (enterFault e l) = entriesOf k l := by
  have hmap : ∀ x : FaultEntry, (if x.screen = e.screen then { x with repeats := min 255 (x.repeats + 1) } else x).screen
      = x.screen := by intro x; split <;> rfl
  unfold entriesOf enterFault
  split
  · rw [List.filter_map]
    have hfun : ((fun x : FaultEntry => x.screen == k) ∘ fun x =>
        if x.screen = e.screen then { x with repeats := min 255 (x.repeats + 1) } else x) = fun x => x.screen == k := by
      funext x
      simp only [Function.comp, hmap]
    rw [hfun]
    refine (List.map_congr_left fun x hx => ?_).trans (List.map_id _)
    have hx : x.screen = k := by simpa using (List.mem_filter.mp hx).2
    rw [if_neg (by rw [hx]; exact fun h' => h h'.symm)]
    rfl
  · simp [h]

theorem marksOf_markIn_ne {j k : ScreenId} (h : j ≠ k) (w : Int) (q : List Segment) :
    marksOf k (markIn j w q) = marksOf k q := by
  unfold marksOf markIn
  rw [List.map_map]
  refine List.map_congr_left fun g _ => ?_
  dsimp only [Function.comp]
  split
  · simp [inSet_addTo, h.symm]
  · rfl

/-- Two states agree in what they hold of screen k. -/
structure KeepsScreen (k : ScreenId) (s t : State) : Prop where
  screen : t.screen k = s.screen k
  faults : entriesOf k t.ring.faults = entriesOf k s.ring.faults
  marks : marksOf k t.web.queue = marksOf k s.web.queue

theorem KeepsScreen.refl (k : ScreenId) (s : State) : KeepsScreen k s s := ⟨rfl, rfl, rfl⟩

theorem KeepsScreen.trans {k : ScreenId} {s t u : State} (h1 : KeepsScreen k s t) (h2 : KeepsScreen k t u) :
    KeepsScreen k s u := ⟨h2.screen.trans h1.screen, h2.faults.trans h1.faults, h2.marks.trans h1.marks⟩

theorem State.advanceChannel_screen_ne {j k : ScreenId} (h : k ≠ j) (dw : Int) (s : State) :
    (s.advanceChannel j dw).screen k = s.screen k := by
  rw [State.advanceChannel_screen, if_neg fun h' => h h'.1]

theorem State.advanceChannel_entries_ne {j k : ScreenId} (h : k ≠ j) (dw : Int) (s : State) :
    entriesOf k (s.advanceChannel j dw).ring.faults = entriesOf k s.ring.faults := by
  rw [State.advanceChannel_faults]
  split
  · exact entriesOf_enterFault_ne h.symm _
  · rfl

theorem KeepsScreen.advanceChannel {j k : ScreenId} {dw : Int} {s : State} (h : k ≠ j) (hground : ¬ s.breaksGround j dw) :
    KeepsScreen k s (s.advanceChannel j dw) where
  screen := State.advanceChannel_screen_ne h dw s
  faults := State.advanceChannel_entries_ne h dw s
  marks := by
    rw [State.advanceChannel_queue hground]
    split
    · exact marksOf_markIn_ne h.symm _ _
    · rfl

/-! ### The whole channel advance -/

/-- The step of the channel advance for channel k (R36). -/
def State.channelStep (s : State) (deltaP : Int) (u : State) (k : ScreenId) : State :=
  u.advanceChannel k (deltaP - (effTrim s.slewAll.screens k - effTrim s.screens k))

theorem State.advanceChannels_eq (deltaP : Int) (s : State) :
    s.advanceChannels deltaP = allScreens.foldl (s.channelStep deltaP) s.slewAll := rfl

/-- The state after channel 0, in which all other channels advance. -/
def State.afterKey (s : State) (deltaP : Int) : State := s.channelStep deltaP s.slewAll 0

/-- The channels after channel 0, in index order. -/
def otherScreens : List ScreenId := allScreens.tail

theorem allScreens_eq : allScreens = 0 :: otherScreens := rfl

theorem nodup_allScreens : allScreens.Nodup := List.nodup_finRange 24

theorem mem_otherScreens {k : ScreenId} : k ∈ otherScreens ↔ k ≠ 0 := by
  have hnodup := nodup_allScreens
  have hmem := mem_allScreens k
  rw [allScreens_eq] at hnodup hmem
  rw [List.mem_cons] at hmem
  constructor
  · rintro h rfl
    exact (List.nodup_cons.mp hnodup).1 h
  · exact hmem.resolve_left

theorem State.advanceChannels_afterKey (deltaP : Int) (s : State) :
    s.advanceChannels deltaP = otherScreens.foldl (s.channelStep deltaP) (s.afterKey deltaP) := by
  rw [State.advanceChannels_eq, allScreens_eq, List.foldl_cons, State.afterKey]

theorem State.screen_afterKey {k : ScreenId} (h : k ≠ 0) (deltaP : Int) (s : State) :
    (s.afterKey deltaP).screen k = s.slewAll.screen k := by
  unfold State.afterKey State.channelStep
  exact State.advanceChannel_screen_ne h _ _

theorem State.entries_afterKey {k : ScreenId} (h : k ≠ 0) (deltaP : Int) (s : State) :
    entriesOf k (s.afterKey deltaP).ring.faults = entriesOf k s.slewAll.ring.faults := by
  rw [State.afterKey, State.channelStep, State.advanceChannel_entries_ne h]

section
variable {s : State} {deltaP : Int}

theorem AdvanceOnly.foldl {l : List ScreenId} (h : ∀ k ∈ l, k ≠ 0) (u : State) :
    AdvanceOnly u (l.foldl (s.channelStep deltaP) u) := by
  induction l generalizing u with
  | nil => exact .refl u
  | cons k l ih =>
    exact (AdvanceOnly.advanceChannel (State.not_breaksGround_of_ne (h k List.mem_cons_self) _ _)).trans
      (ih (fun j hj => h j (List.mem_cons_of_mem _ hj)) _)

theorem KeepsScreen.foldl {k : ScreenId} {l : List ScreenId} (h : ∀ j ∈ l, j ≠ 0) (hk : k ∉ l) (u : State) :
    KeepsScreen k u (l.foldl (s.channelStep deltaP) u) := by
  induction l generalizing u with
  | nil => exact .refl k u
  | cons j l ih =>
    rw [List.mem_cons, not_or] at hk
    exact (KeepsScreen.advanceChannel hk.1 (State.not_breaksGround_of_ne (h j List.mem_cons_self) _ _)).trans
      (ih (fun i hi => h i (List.mem_cons_of_mem _ hi)) hk.2 _)

/-- A state in which channel k advances: the one after the slews for channel 0, for the others one that differs from the
state after channel 0 in nothing of screen k. What is left of the advance then keeps what screen k has become. -/
structure State.Meets (s : State) (deltaP : Int) (k : ScreenId) (u : State) : Prop where
  before : (k = 0 ∧ u = s.slewAll) ∨ (k ≠ 0 ∧ AdvanceOnly (s.afterKey deltaP) u ∧ KeepsScreen k (s.afterKey deltaP) u)
  after : AdvanceOnly (s.channelStep deltaP u k) (s.advanceChannels deltaP)
  keeps : KeepsScreen k (s.channelStep deltaP u k) (s.advanceChannels deltaP)

/-- Every channel of a cycle meets such a state. -/
theorem State.exists_meets (s : State) (deltaP : Int) (k : ScreenId) : ∃ u, s.Meets deltaP k u := by
  by_cases hk : k = 0
  · subst hk
    refine ⟨s.slewAll, .inl ⟨rfl, rfl⟩, ?_, ?_⟩ <;> rw [State.advanceChannels_afterKey]
    · exact .foldl (fun j hj => mem_otherScreens.mp hj) _
    · exact .foldl (fun j hj => mem_otherScreens.mp hj) (fun h => mem_otherScreens.mp h rfl) _
  · obtain ⟨before, after, hsplit⟩ := List.append_of_mem (mem_otherScreens.mpr hk)
    have hnodup : (before ++ k :: after).Nodup := by
      have := nodup_allScreens
      rw [allScreens_eq, hsplit] at this
      exact (List.nodup_cons.mp this).2
    have hne : ∀ j ∈ before ++ k :: after, j ≠ 0 := fun j hj => mem_otherScreens.mp (hsplit ▸ hj)
    rw [List.nodup_middle, List.nodup_cons, List.mem_append, not_or] at hnodup
    have hb : ∀ j ∈ before, j ≠ 0 := fun j hj => hne j (List.mem_append_left _ hj)
    have ha : ∀ j ∈ after, j ≠ 0 := fun j hj => hne j (List.mem_append_right _ (List.mem_cons_of_mem _ hj))
    refine ⟨before.foldl (s.channelStep deltaP) (s.afterKey deltaP), .inr ⟨hk, .foldl hb _, .foldl hb hnodup.1.1 _⟩, ?_, ?_⟩
      <;> rw [State.advanceChannels_afterKey, hsplit, List.foldl_append, List.foldl_cons]
    · exact .foldl ha _
    · exact .foldl ha hnodup.1.2 _

/-- A channel finds its screen as the slews leave it. -/
theorem State.Meets.screen {k : ScreenId} {u : State} (h : s.Meets deltaP k u) : u.screen k = s.slewAll.screen k := by
  rcases h.before with ⟨-, rfl⟩ | ⟨hk, -, hkeeps⟩
  · rfl
  · rw [hkeeps.screen, State.screen_afterKey hk]

theorem State.slewAll_ring (s : State) : s.slewAll.ring = s.ring := by
  unfold State.slewAll
  rw [State.mapScreens_ring]

/-- A channel finds the fault list entries of its screen as they were. -/
theorem State.Meets.faults {k : ScreenId} {u : State} (h : s.Meets deltaP k u) :
    entriesOf k u.ring.faults = entriesOf k s.ring.faults := by
  rcases h.before with ⟨-, rfl⟩ | ⟨hk, -, hkeeps⟩
  · rw [State.slewAll_ring]
  · rw [hkeeps.faults, State.entries_afterKey hk, State.slewAll_ring s]

end

end Sys2Proof.Machine
end

section
/-! PROOFS. What a drive cycle and a turnaround make of the screens, and two properties that every step keeps: the screens
stay lawful, and the planned set follows the engagement states. -/

namespace Sys2Proof.Machine

/-! ### The screens after a drive cycle -/

/-- The state after the channel advance of a drive cycle. -/
def State.advanced (s : State) : State := s.advancePosition.advanceChannels s.pos.deltaP

theorem State.driveCycle_eq (s : State) :
    s.driveCycle = ((s.advanced.windowTests.formSetpoints).webTests.sendFrame).evalHold.evalLines := rfl

/-- A channel with its applied trim slewed (R35). -/
def Screen.slew (x : Screen) : Screen :=
  if x.present then { x with chan := { x.chan with applied := slewed x.chan.applied x.chan.target x.tuning.slew } } else x

theorem State.screen_slewAll (s : State) (k : ScreenId) : s.slewAll.screen k = (s.screen k).slew := by
  unfold State.slewAll
  rw [State.screen_mapScreens]
  rfl

theorem Screen.slew_eq (x : Screen) : x.slew = { x with chan := { x.chan with applied := x.slew.chan.applied } } := by
  unfold Screen.slew
  split <;> rfl

/-- The applied trim takes a step of the slew toward its target, or is there (R35). -/
theorem slewed_mem {applied target slew low high : Int} (hslew : 0 ≤ slew) (ha : low ≤ applied ∧ applied ≤ high)
    (ht : low ≤ target ∧ target ≤ high) : low ≤ slewed applied target slew ∧ slewed applied target slew ≤ high := by
  unfold slewed
  split_ifs <;> omega

/-- The phase setpoint of a screen formed (R42). -/
def Screen.formed (x : Screen) : Screen :=
  if x.present then { x with chan := { x.chan with setpoint := x.chan.r * x.chan.gear / 65536 } } else x

theorem State.screen_formSetpoints (s : State) (k : ScreenId) : s.formSetpoints.screen k = (s.screen k).formed := by
  unfold State.formSetpoints
  rw [State.screen_mapScreens]
  rfl

theorem Screen.formed_eq (x : Screen) :
    x.formed = { x with chan := { x.chan with setpoint := x.formed.chan.setpoint } } := by
  unfold Screen.formed
  split <;> rfl

theorem State.screen_windowTests (s : State) (k : ScreenId) :
    s.windowTests.screen k = (s.screen k).window (arrivingSeq s (s.design k)) := by
  unfold State.windowTests
  rw [State.screen_mapScreens]

/-- Nothing after the setpoints touches a screen. -/
theorem State.screen_driveCycle (s : State) (k : ScreenId) :
    s.driveCycle.screen k =
      ((s.advanced.screen k).window (arrivingSeq s.advanced (s.advanced.design k))).formed := by
  rw [State.driveCycle_eq, State.screen_evalLines, State.screen_evalHold]
  unfold State.sendFrame
  rw [State.screen_withRing, (WebOnly.webTests _).screen, State.screen_formSetpoints, State.screen_windowTests]

theorem State.screen_advancePosition (s : State) (k : ScreenId) : s.advancePosition.screen k = s.screen k := by
  unfold State.advancePosition
  rw [State.screen_latchIf, State.screen_withPos]

theorem ScreensAdvance.foldl {s : State} {deltaP : Int} (l : List ScreenId) (u : State) :
    ScreensAdvance u (l.foldl (s.channelStep deltaP) u) := by
  induction l generalizing u with
  | nil => exact .refl u
  | cons k l ih => exact (ScreensAdvance.advanceChannel k _ u).trans (ih _)

theorem ScreensAdvance.advanced (s : State) : ScreensAdvance s.advancePosition.slewAll s.advanced := .foldl _ _

/-! ### Engagement records in a drive cycle or a turnaround -/

/-- What a drive cycle or a turnaround may do to an engagement record: it makes no screen ABSENT or present, keeps causes
with faults, and puts no screen among the planned states or down that was not there. -/
structure Engagement.Proceeds (e e' : Engagement) : Prop where
  absent : e'.state = .absent ↔ e.state = .absent
  cause : (e.state = .faulted ↔ e.cause ≠ none) → (e'.state = .faulted ↔ e'.cause ≠ none)
  planned : e'.state = .armed ∨ e'.state = .lowering ∨ e'.state = .printing →
    e.state = .armed ∨ e.state = .lowering ∨ e.state = .printing
  ending : e'.state = .ending → e.state = .ending

theorem Engagement.Proceeds.refl (e : Engagement) : e.Proceeds e := ⟨.rfl, id, id, id⟩

theorem Engagement.Proceeds.trans {e f g : Engagement} (h1 : e.Proceeds f) (h2 : f.Proceeds g) : e.Proceeds g :=
  ⟨h2.absent.trans h1.absent, fun h => h2.cause (h1.cause h), fun h => h1.planned (h2.planned h),
    fun h => h1.ending (h2.ending h)⟩

theorem Engagement.Proceeds.fault {e : Engagement} (h : e.state ≠ .absent) (c : FaultCause) : e.Proceeds (e.fault c) := by
  constructor <;> simp [Engagement.fault, h]

/-- A crossing only carries an engagement on (R60 to R63). -/
theorem Screen.crossed_proceeds (entered : Nat) (x : Screen) : x.eng.Proceeds (x.crossed entered) := by
  unfold Screen.crossed
  cases h : x.eng.state with
  | lowering =>
    dsimp only
    split
    · constructor <;> simp [h]
    · exact .fault (by simp [h]) _
  | ending =>
    dsimp only
    split
    · constructor <;> simp [h]
    · exact .refl _
  | absent | parked | armed | printing | faulted => exact .refl _

/-- A window test only carries an engagement on (R59). -/
theorem Screen.window_proceeds (arriving : Nat) (x : Screen) : x.eng.Proceeds (x.window arriving).eng := by
  unfold Screen.window
  split_ifs with harmed
  · exact .refl _
  · exact ⟨.rfl, id, id, id⟩
  · have h : x.eng.state = .armed := not_not.mp harmed
    constructor <;> simp [h]
  · exact .refl _

theorem Screen.formed_eng (x : Screen) : x.formed.eng = x.eng := by rw [Screen.formed_eq]

theorem State.advanceChannel_proceeds (k j : ScreenId) (dw : Int) (s : State) :
    (s.screen j).eng.Proceeds ((s.advanceChannel k dw).screen j).eng := by
  rw [State.advanceChannel_screen]
  split
  · rename_i h
    rw [h.1]
    unfold State.advancedScreen
    dsimp only
    split
    · exact Screen.crossed_proceeds _ _
    · exact .refl _
  · exact .refl _

theorem State.foldl_proceeds {s : State} {deltaP : Int} (l : List ScreenId) (u : State) (j : ScreenId) :
    (u.screen j).eng.Proceeds ((l.foldl (s.channelStep deltaP) u).screen j).eng := by
  induction l generalizing u with
  | nil => exact .refl _
  | cons k l ih => exact (State.advanceChannel_proceeds k j _ u).trans (ih _)

theorem State.driveCycle_proceeds (s : State) (k : ScreenId) :
    (s.screen k).eng.Proceeds (s.driveCycle.screen k).eng := by
  rw [State.screen_driveCycle, Screen.formed_eng]
  refine Engagement.Proceeds.trans ?_ (Screen.window_proceeds _ _)
  have h := State.foldl_proceeds (s := s.advancePosition) (deltaP := s.pos.deltaP) allScreens s.advancePosition.slewAll k
  rw [State.screen_slewAll, Screen.slew_eq, State.screen_advancePosition] at h
  exact h

theorem State.screenFault_proceeds (k j : ScreenId) (c : FaultCause) (seq : Nat) (s : State) :
    (s.screen j).eng.Proceeds ((s.screenFault k c seq).screen j).eng := by
  rw [State.screenFault_eng]
  split
  · rename_i h
    rw [h.1]
    exact .fault h.2.1 c
  · exact .refl _

theorem State.faultSlot_proceeds (s : State) (reply : ScreenId → Option DriveReply) (u : State) (k j : ScreenId) :
    (u.screen j).eng.Proceeds ((s.faultSlot reply u k).screen j).eng := by
  unfold State.faultSlot
  split
  · split
    · exact State.screenFault_proceeds _ _ _ _ _
    · exact .refl _
  · exact .refl _

theorem State.foldl_faultSlot_proceeds (s : State) (reply : ScreenId → Option DriveReply) (l : List ScreenId) (u : State)
    (j : ScreenId) : (u.screen j).eng.Proceeds ((l.foldl (s.faultSlot reply) u).screen j).eng := by
  induction l generalizing u with
  | nil => exact .refl _
  | cons k l ih => exact (State.faultSlot_proceeds s reply u k j).trans (ih _)

theorem State.turnaround_proceeds (s : State) (reply : ScreenId → Option DriveReply) (k : ScreenId) :
    (s.screen k).eng.Proceeds ((s.turnaround reply).screen k).eng := by
  have h : (s.closeFrame reply).screen k = { s.screen k with
      miss := ((s.closeFrame reply).screen k).miss, last := ((s.closeFrame reply).screen k).last } := by
    rw [State.screen_closeFrame, State.screen_readSlots]
    split
    · rw [Screen.evalSlot_eq]
    · rfl
  have hfold := State.foldl_faultSlot_proceeds s reply allScreens (s.closeFrame reply) k
  rw [h] at hfold
  rw [State.turnaround_eq, State.screen_evalLines, State.screen_evalHold]
  exact hfold

end Sys2Proof.Machine
end

section
/-! PROOFS. What the records of SCREEN.PUT and SCREEN.TUNE carry once their fields have passed (R22, R28). -/

namespace Sys2Proof.Machine

/-- A bind answers exactly where both of its parts do. -/
theorem bind_ok {α β : Type} {x : Except Answer α} {f : α → Except Answer β} {b : β} :
    (x >>= f) = .ok b ↔ ∃ a, x = .ok a ∧ f a = .ok b := by
  cases x with
  | error e =>
    constructor
    · intro h; cases h
    · rintro ⟨a, h, -⟩; cases h
  | ok a =>
    constructor
    · intro h; exact ⟨a, rfl, h⟩
    · rintro ⟨_, h, hf⟩; cases h; exact hf

/-- A choice between two binds into one continuation is one bind of the choice. -/
theorem ite_bind {α β : Type} {c : Prop} [Decidable c] {x y : Except Answer α} {f : α → Except Answer β} :
    (if c then x >>= f else y >>= f) = (if c then x else y) >>= f := by
  split <;> rfl

/-- A field is taken exactly where it stands first and within its range. -/
theorem takeField_ok {payload : List Word} {low high : Nat} {fs rest : List Field} {f : Field} :
    takeField payload low high fs = .ok (f, rest) ↔ fs = f :: rest ∧ low ≤ f.value ∧ f.value ≤ high := by
  unfold takeField
  cases fs with
  | nil => simp
  | cons g gs =>
    dsimp only
    split
    · rename_i h
      simp only [Bool.or_eq_true, decide_eq_true_eq] at h
      simp only [reduceCtorEq, List.cons.injEq, false_iff]
      rintro ⟨⟨rfl, -⟩, h1, h2⟩
      omega
    · rename_i h
      simp only [Bool.or_eq_true, decide_eq_true_eq, not_or, not_lt] at h
      simp only [Except.ok.injEq, Prod.mk.injEq, List.cons.injEq]
      constructor
      · rintro ⟨rfl, rfl⟩
        exact ⟨⟨rfl, rfl⟩, h⟩
      · exact fun hfs => hfs.1

/-- The fields of a tuning record, in order, with the ranges of R28. -/
structure TuningFields (lead slew gain deadband step : Field) : Prop where
  leadRange : 2000 ≤ lead.value ∧ lead.value ≤ 50000
  slewRange : 1 ≤ slew.value ∧ slew.value ≤ 64
  gainRange : 0 ≤ gain.value ∧ gain.value ≤ 256
  deadbandRange : 0 ≤ deadband.value ∧ deadband.value ≤ 255
  stepRange : 1 ≤ step.value ∧ step.value ≤ 1000

/-- A tuning record passes exactly where its five fields stand first and within their ranges. -/
theorem parseTuning_ok {payload : List Word} {fs rest : List Field} {t : Tuning} :
    parseTuning payload fs = .ok (t, rest) ↔ ∃ lead slew gain deadband step : Field,
      fs = lead :: slew :: gain :: deadband :: step :: rest ∧ TuningFields lead slew gain deadband step
      ∧ t = { lead := lead.value, slew := slew.value, gain := gain.value, deadband := deadband.value,
              stepLimit := step.value } := by
  unfold parseTuning
  simp only [bind_ok, Prod.exists, takeField_ok, Except.ok.injEq, Prod.mk.injEq]
  constructor
  · rintro ⟨lead, _, ⟨rfl, h1⟩, slew, _, ⟨rfl, h2⟩, gain, _, ⟨rfl, h3⟩, deadband, _, ⟨rfl, h4⟩, step, _, ⟨rfl, h5⟩, rfl, rfl⟩
    exact ⟨lead, slew, gain, deadband, step, rfl, ⟨h1, h2, h3, h4, h5⟩, rfl⟩
  · rintro ⟨lead, slew, gain, deadband, step, rfl, ⟨h1, h2, h3, h4, h5⟩, rfl⟩
    exact ⟨lead, _, ⟨rfl, h1⟩, slew, _, ⟨rfl, h2⟩, gain, _, ⟨rfl, h3⟩, deadband, _, ⟨rfl, h4⟩, step, _, ⟨rfl, h5⟩, rfl, rfl⟩

/-- The fields of a structural record that has passed the checks of R22 in a state, with the extension it gives. -/
structure RecordFields (s : State) (head pres kind dist lim : Field) (exts : List Field) (ext : Bool) : Prop where
  presRange : pres.value ≤ 1
  kindRange : kind.value ≤ 1
  distRange : dist.value ≤ 2000000
  limRange : lim.value ≤ 3000
  extension : (head.value = 0 ∧ exts = [] ∧ ext = false)
    ∨ (head.value = 1 ∧ ∃ e : Field, exts = [e] ∧ e.value ≤ 1 ∧ ext = decide (e.value = 1))
  inside : ¬ (s.web.lineState ≠ .setup ∧ pres.value = 1 ∧ s.line.xInsp ≤ dist.value)

/-- The record that its fields give. -/
def recordOf (head pres kind dist lim : Field) (ext : Bool) : StructRecord :=
  { headIndex := head.index, kindIndex := kind.index, distIndex := dist.index, present := decide (pres.value = 1)
    kind := if kind.value = 1 then .relative else .anchor, dist := dist.value, limit := lim.value, ext := ext }

/-- A structural record passes its field checks exactly where its fields stand first and within their ranges. -/
theorem parseRecord_ok {payload : List Word} {s : State} {fs rest : List Field} {r : StructRecord} :
    parseRecord payload s fs = .ok (r, rest) ↔ ∃ (head pres kind dist lim : Field) (exts : List Field) (ext : Bool),
      fs = head :: pres :: kind :: dist :: lim :: (exts ++ rest) ∧ RecordFields s head pres kind dist lim exts ext
      ∧ r = recordOf head pres kind dist lim ext := by
  have hext : ∀ (head : Field) (fs rest : List Field) (ext : Bool), head.value ≤ 1 →
      ((if head.value = 1 then (takeField payload 0 1 fs).map fun e => (e.1.value == 1, e.2) else .ok (false, fs))
        = .ok (ext, rest) ↔ ∃ exts : List Field, fs = exts ++ rest ∧ ((head.value = 0 ∧ exts = [] ∧ ext = false)
          ∨ (head.value = 1 ∧ ∃ e : Field, exts = [e] ∧ e.value ≤ 1 ∧ ext = decide (e.value = 1)))) := by
    intro head fs rest ext hhead
    by_cases h1 : head.value = 1
    · rw [if_pos h1]
      constructor
      · intro h
        cases ht : takeField payload 0 1 fs with
        | error a => rw [ht] at h; cases h
        | ok x =>
          rw [ht] at h
          cases h
          obtain ⟨hfs, -, hle⟩ := takeField_ok.mp (show takeField payload 0 1 fs = .ok (x.1, x.2) from ht)
          exact ⟨[x.1], hfs, .inr ⟨h1, x.1, rfl, hle, rfl⟩⟩
      · rintro ⟨exts, rfl, ⟨h0, -, -⟩ | ⟨-, e, rfl, he, rfl⟩⟩
        · omega
        · rw [List.singleton_append, takeField_ok.mpr ⟨rfl, Nat.zero_le _, he⟩]
          rfl
    · rw [if_neg h1]
      simp only [Except.ok.injEq, Prod.mk.injEq]
      constructor
      · rintro ⟨rfl, rfl⟩
        exact ⟨[], rfl, .inl ⟨by omega, rfl, rfl⟩⟩
      · rintro ⟨exts, rfl, ⟨-, rfl, rfl⟩ | ⟨h, -⟩⟩
        · exact ⟨rfl, rfl⟩
        · exact absurd h h1
  unfold parseRecord
  simp only [ite_bind, bind_ok, Prod.exists, takeField_ok]
  constructor
  · rintro ⟨head, _, ⟨rfl, -, h0⟩, pres, _, ⟨rfl, -, h1⟩, kind, _, ⟨rfl, -, h2⟩, dist, _, ⟨rfl, -, h3⟩, lim, fs, ⟨rfl, -, h4⟩,
      ext, rest', h5, h6⟩
    obtain ⟨exts, rfl, hcases⟩ := (hext head fs rest' ext h0).mp h5
    split at h6
    · cases h6
    · rename_i hinside
      cases h6
      exact ⟨head, pres, kind, dist, lim, exts, ext, rfl, ⟨h1, h2, h3, h4, hcases, hinside⟩, rfl⟩
  · rintro ⟨head, pres, kind, dist, lim, exts, ext, rfl, ⟨h1, h2, h3, h4, hcases, hinside⟩, rfl⟩
    have h0 : head.value ≤ 1 := by rcases hcases with ⟨h, -⟩ | ⟨h, -⟩ <;> omega
    exact ⟨head, _, ⟨rfl, Nat.zero_le _, h0⟩, pres, _, ⟨rfl, Nat.zero_le _, h1⟩, kind, _, ⟨rfl, Nat.zero_le _, h2⟩,
      dist, _, ⟨rfl, Nat.zero_le _, h3⟩, lim, _, ⟨rfl, Nat.zero_le _, h4⟩, ext, rest,
      (hext head _ rest ext h0).mpr ⟨exts, rfl, hcases⟩, if_neg hinside⟩

end Sys2Proof.Machine
end

section
/-! PROOFS. The screens stay lawful, and the planned set follows the engagement states. -/

namespace Sys2Proof.Machine

/-! ### The state after RUN.DRAIN -/

theorem State.screen_runDrain (s : State) (k : ScreenId) :
    s.runDrain.screen k = (s.withWeb { s.web with lineState := .drain }).liftPlanned.screen k := by
  unfold State.runDrain
  rw [State.screen_evalLines, State.screen_evalHold, (WebOnly.drainIfEmpty _).screen]

/-- A property of a state that every step of a fold keeps holds after the fold. -/
theorem foldl_keeps {α : Type} {inv : State → Prop} {f : State → α → State} (h : ∀ u a, inv u → inv (f u a)) (l : List α)
    {u : State} (hu : inv u) : inv (l.foldl f u) := by
  induction l generalizing u with
  | nil => exact hu
  | cons a l ih => exact ih (h u a hu)

/-! ### One lawful screen -/

/-- A lawful screen with another engagement record is lawful, if that makes it neither ABSENT nor present and keeps
causes with faults. -/
theorem Screen.Lawful.withEng {x : Screen} {e : Engagement} (h : x.Lawful)
    (habsent : e.state = .absent ↔ x.eng.state = .absent)
    (hcause : (x.eng.state = .faulted ↔ x.eng.cause ≠ none) → (e.state = .faulted ↔ e.cause ≠ none)) :
    ({ x with eng := e } : Screen).Lawful := by
  obtain ⟨h1, h2, h3, h4, h5⟩ := h
  exact ⟨h1.trans habsent.symm, h2, h3, hcause h4, h5⟩

theorem Screen.Lawful.proceeds {x : Screen} {e : Engagement} (h : x.Lawful) (he : x.eng.Proceeds e) :
    ({ x with eng := e } : Screen).Lawful := h.withEng he.absent he.cause

/-- A lawful screen with another channel is lawful, if its trims lie within its limit. -/
theorem Screen.Lawful.withChan {x : Screen} {c : Channel} (h : x.Lawful) (ht : -x.limit ≤ c.target ∧ c.target ≤ x.limit)
    (ha : -x.limit ≤ c.applied ∧ c.applied ≤ x.limit) : ({ x with chan := c } : Screen).Lawful := by
  obtain ⟨h1, h2, h3, h4, h5, h6, h7, -, -, -, -, h8⟩ := h
  exact ⟨h1, h2, h3, h4, h5, h6, h7, ht.1, ht.2, ha.1, ha.2, h8⟩

theorem Screen.Lawful.limit {x : Screen} (h : x.Lawful) : 0 ≤ x.limit := by
  obtain ⟨-, -, -, -, -, h6, -⟩ := h
  exact h6

theorem Screen.Lawful.target {x : Screen} (h : x.Lawful) : -x.limit ≤ x.chan.target ∧ x.chan.target ≤ x.limit := by
  obtain ⟨-, -, -, -, -, -, -, h1, h2, -⟩ := h
  exact ⟨h1, h2⟩

theorem Screen.Lawful.applied {x : Screen} (h : x.Lawful) : -x.limit ≤ x.chan.applied ∧ x.chan.applied ≤ x.limit := by
  obtain ⟨-, -, -, -, -, -, -, -, -, h1, h2, -⟩ := h
  exact ⟨h1, h2⟩

theorem Screen.Lawful.slew_nonneg {x : Screen} (h : x.Lawful) : 0 ≤ x.tuning.slew := by
  obtain ⟨-, -, -, -, -, -, -, -, -, -, -, h1, -⟩ := h
  omega

theorem Screen.Lawful.slew {x : Screen} (h : x.Lawful) : x.slew.Lawful := by
  unfold Screen.slew
  split
  · exact h.withChan h.target (slewed_mem h.slew_nonneg h.applied h.target)
  · exact h

/-! ### The laws of the table from screen to screen -/

/-- The screen table stays lawful where every screen stays so, keeps its structure, and the trims of screen 0 stay 0. -/
theorem State.ScreensLawful.of_screens {s t : State} (hs : s.ScreensLawful) (hlaw : ∀ k, (s.screen k).Lawful → (t.screen k).Lawful)
    (hstruct : ∀ k, (t.screen k).present = (s.screen k).present ∧ (t.screen k).kind = (s.screen k).kind
      ∧ (t.screen k).dist = (s.screen k).dist)
    (htrims : (s.screen 0).chan.target = 0 → (s.screen 0).chan.applied = 0 →
      (t.screen 0).chan.target = 0 ∧ (t.screen 0).chan.applied = 0) : t.ScreensLawful := by
  obtain ⟨hall, hkey, htarget, happlied⟩ := hs
  refine ⟨fun k => hlaw k (hall k), ?_, htrims htarget happlied⟩
  rintro ⟨k, hk⟩
  obtain ⟨h1, h2, h3⟩ := hkey ⟨k, (hstruct k).1 ▸ hk⟩
  rw [(hstruct 0).1, (hstruct 0).2.1, (hstruct 0).2.2]
  exact ⟨h1, h2, h3⟩

theorem State.ScreensLawful.congr {s t : State} (hs : s.ScreensLawful) (h : ∀ k, t.screen k = s.screen k) :
    t.ScreensLawful :=
  hs.of_screens (fun k hk => by rw [h k]; exact hk) (fun k => by rw [h k]; exact ⟨rfl, rfl, rfl⟩)
    (fun h1 h2 => by rw [h 0]; exact ⟨h1, h2⟩)

/-- Engagement records that make no screen ABSENT or present and keep causes with faults keep the table lawful. -/
theorem State.ScreensLawful.of_eng {s t : State} (hs : s.ScreensLawful)
    (h : ∀ k, t.screen k = { s.screen k with eng := (t.screen k).eng })
    (habsent : ∀ k, (t.screen k).eng.state = .absent ↔ (s.screen k).eng.state = .absent)
    (hcause : ∀ k, ((s.screen k).eng.state = .faulted ↔ (s.screen k).eng.cause ≠ none) →
      ((t.screen k).eng.state = .faulted ↔ (t.screen k).eng.cause ≠ none)) : t.ScreensLawful := by
  refine hs.of_screens (fun k hk => ?_) (fun k => by rw [h k]; exact ⟨rfl, rfl, rfl⟩) fun h1 h2 => ?_
  · rw [h k]
    exact hk.withEng (habsent k) (hcause k)
  · rw [h 0]
    exact ⟨h1, h2⟩

/-! ### The changes -/

section
variable {s : State}

/-- After a drive cycle a screen differs in the places of its channel, its slewed trim and its engagement record. -/
theorem State.screen_driveCycle_slew (s : State) (k : ScreenId) : ∃ (c : Channel) (e : Engagement),
    s.driveCycle.screen k = { (s.screen k).slew with chan := c, eng := e }
    ∧ c.target = (s.screen k).slew.chan.target ∧ c.applied = (s.screen k).slew.chan.applied := by
  have hadv : ∃ (c : Channel) (e : Engagement), s.advanced.screen k = { (s.screen k).slew with chan := c, eng := e }
      ∧ c.target = (s.screen k).slew.chan.target ∧ c.applied = (s.screen k).slew.chan.applied := by
    have h := ScreensAdvance.advanced s k
    rw [State.screen_slewAll, State.screen_advancePosition] at h
    exact ⟨_, _, h, rfl, rfl⟩
  obtain ⟨c, e, hadv, ht, ha⟩ := hadv
  rw [State.screen_driveCycle, hadv, Screen.formed_eq, Screen.window_eq]
  exact ⟨_, _, rfl, ht, ha⟩

theorem State.ScreensLawful.driveCycle (hs : s.ScreensLawful) : s.driveCycle.ScreensLawful := by
  refine hs.of_screens (fun k hk => ?_) (fun k => ?_) fun htarget happlied => ?_
  · obtain ⟨c, e, h, ht, ha⟩ := s.screen_driveCycle_slew k
    have hslew := hk.slew
    have hproceeds := s.driveCycle_proceeds k
    rw [h, ← show (s.screen k).slew.eng = (s.screen k).eng by rw [Screen.slew_eq]] at hproceeds
    rw [h]
    exact (hslew.proceeds hproceeds).withChan (by rw [ht]; exact hslew.target) (by rw [ha]; exact hslew.applied)
  · obtain ⟨c, e, h, -⟩ := s.screen_driveCycle_slew k
    rw [h, Screen.slew_eq]
    exact ⟨rfl, rfl, rfl⟩
  · obtain ⟨c, e, h, ht, ha⟩ := s.screen_driveCycle_slew 0
    rw [h]
    dsimp only
    rw [ht, ha]
    unfold Screen.slew
    split
    · have hnonneg := (hs.1 0).slew_nonneg
      refine ⟨htarget, ?_⟩
      dsimp only
      rw [htarget, happlied]
      simp [slewed, hnonneg]
    · exact ⟨htarget, happlied⟩

theorem State.ScreensLawful.turnaround (reply : ScreenId → Option DriveReply) (hs : s.ScreensLawful) :
    (s.turnaround reply).ScreensLawful := by
  have hstruct : ∀ k, ((s.turnaround reply).screen k).sameRecord (s.screen k)
      ∧ ((s.turnaround reply).screen k).chan = (s.screen k).chan := s.turnaround_keepsRecord reply
  refine hs.of_screens (fun k hk => ?_) (fun k => ?_) fun h1 h2 => ?_
  · cases hp : (s.screen k).present with
    | false => rw [State.screen_turnaround_absent _ _ hp]; exact hk
    | true =>
      have hproceeds := s.turnaround_proceeds reply k
      have hlaw := hk.proceeds hproceeds
      rw [State.screen_turnaround_present _ _ hp] at hproceeds ⊢
      obtain ⟨h1, h2, h3, h4, h5, h6⟩ := hlaw
      refine ⟨h1, fun h => ?_, h3, h4, ?_, h6⟩
      · exact absurd hp (by simpa using h)
      · dsimp only
        split <;> omega
  · obtain ⟨⟨h1, h2, h3, -⟩, -⟩ := hstruct k
    exact ⟨h1, h2, h3⟩
  · rw [(hstruct 0).2]
    exact ⟨h1, h2⟩

/-- What the tables of R56 do to one record. -/
theorem State.engageScreen_lawful (k : ScreenId) (hs : s.ScreensLawful) : (s.engageScreen k).ScreensLawful := by
  have heng : ∀ j, ((s.engageScreen k).screen j).eng = (s.screen j).eng
      ∨ ((s.screen j).eng.state = .parked ∧ ((s.engageScreen k).screen j).eng = (s.screen j).eng.arm s.web.nextSeq)
      ∨ ((s.screen j).eng.state = .ending
        ∧ ((s.engageScreen k).screen j).eng = { (s.screen j).eng with state := .printing, stopSeq := 0 }) := by
    intro j
    rw [State.engageScreen_screen]
    split_ifs with h1 h2
    · obtain ⟨rfl, h1⟩ := h1
      exact .inr (.inl ⟨h1, rfl⟩)
    · obtain ⟨rfl, h2⟩ := h2
      exact .inr (.inr ⟨h2, rfl⟩)
    · exact .inl rfl
  refine hs.of_eng (PlanOnly.engageScreen k s).2 (fun j => ?_) (fun j => ?_) <;>
    rcases heng j with h | ⟨hstate, h⟩ | ⟨hstate, h⟩ <;> rw [h]
  · simp [Engagement.arm, hstate]
  · simp [hstate]
  · exact id
  · simp [Engagement.arm]
  · simp [hstate]

theorem Engagement.lift_keeps (n : Nat) (e : Engagement) :
    ((e.lift n).state = .absent ↔ e.state = .absent) ∧ ((e.lift n).state = .faulted ↔ e.state = .faulted)
      ∧ (e.lift n).cause = e.cause := by
  unfold Engagement.lift
  cases h : e.state <;> simp [h]

theorem Engagement.abort_keeps (e : Engagement) :
    (e.abort.state = .absent ↔ e.state = .absent) ∧ (e.abort.state = .faulted ↔ e.state = .faulted)
      ∧ e.abort.cause = e.cause := by
  unfold Engagement.abort
  cases h : e.state <;> simp [h]

theorem State.liftScreen_lawful (k : ScreenId) (hs : s.ScreensLawful) : (s.liftScreen k).ScreensLawful := by
  have heng : ∀ j, ((s.liftScreen k).screen j).eng = (s.screen j).eng
      ∨ ((s.liftScreen k).screen j).eng = (s.screen j).eng.lift s.web.nextSeq := by
    intro j
    rw [State.liftScreen_screen]
    split
    · rename_i h; subst h; exact .inr rfl
    · exact .inl rfl
  refine hs.of_eng (PlanOnly.liftScreen k s).2 (fun j => ?_) (fun j => ?_) <;> rcases heng j with h | h <;> rw [h]
  · exact ((s.screen j).eng.lift_keeps s.web.nextSeq).1
  · exact id
  · obtain ⟨-, h1, h2⟩ := (s.screen j).eng.lift_keeps s.web.nextSeq
    rw [h1, h2]
    exact id

theorem State.ScreensLawful.clear {payload : List Word} {k : ScreenId} (h : screenClearParse payload s = .ok k)
    (hs : s.ScreensLawful) : (s.clear k).ScreensLawful := by
  have hfaulted : (s.screen k).eng.state = .faulted := by
    by_contra hne
    unfold screenClearParse at h
    cases hone : oneScreen payload with
    | error a => rw [hone] at h; cases h
    | ok j =>
      rw [hone] at h
      by_cases hj : j = k
      · subst hj
        dsimp only at h
        rw [if_pos (show s.engState j ≠ .faulted from hne)] at h
        cases h
      · dsimp only at h
        split_ifs at h
        cases h
        exact hj rfl
  have hcleared : (s.cleared k (s.screen k).eng).state ≠ .absent ∧ (s.cleared k (s.screen k).eng).cause = none := by
    unfold State.cleared
    split <;> simp
  have heng : ∀ j, (s.clear k).screen j = if j = k then { s.screen k with eng := s.cleared k (s.screen k).eng }
      else s.screen j := by
    intro j
    unfold State.clear
    rw [State.screen_evalHold, State.screen_modEng]
  refine hs.of_eng (fun j => ?_) (fun j => ?_) (fun j => ?_) <;> rw [heng j] <;> split
  · rename_i hj; rw [hj]
  · rfl
  · rename_i hj; rw [hj]; simp [hfaulted, hcleared.1]
  · exact Iff.rfl
  · simp [hcleared.2, s.cleared_ne_faulted]
  · exact id

theorem State.ScreensLawful.tuning {payload : List Word} {fs rest : List Field} {x : Tuning} (j : ScreenId)
    (h : parseTuning payload fs = .ok (x, rest)) (hs : s.ScreensLawful) :
    (s.modScreen j fun y => { y with tuning := x }).ScreensLawful := by
  obtain ⟨lead, slew, gain, deadband, step, -, hfields, rfl⟩ := parseTuning_ok.mp h
  obtain ⟨-, ⟨hlow, hhigh⟩, -⟩ := hfields
  refine hs.of_screens (fun k hk => ?_) (fun k => ?_) fun h1 h2 => ?_ <;> rw [State.screen_modScreen] <;> split
  · rename_i hj
    subst hj
    obtain ⟨h1, h2, h3, h4, h5, h6, h7, h8, h9, h10, h11, -⟩ := hk
    exact ⟨h1, h2, h3, h4, h5, h6, h7, h8, h9, h10, h11, by simpa using hlow, by simpa using hhigh⟩
  · exact hk
  · rename_i hj; subst hj; exact ⟨rfl, rfl, rfl⟩
  · exact ⟨rfl, rfl, rfl⟩
  · rename_i hj; subst hj; exact ⟨h1, h2⟩
  · exact ⟨h1, h2⟩

theorem State.placed_trims (k : ScreenId) (c : Channel) (s : State) :
    (s.placed k c).target = c.target ∧ (s.placed k c).applied = c.applied := by
  unfold State.placed
  split <;> exact ⟨rfl, rfl⟩

theorem State.ScreensLawful.align {payload : List Word} {a : ScreenId} (h : groupAlignParse payload s = .ok a)
    (hs : s.ScreensLawful) : (s.alignGroup a).ScreensLawful := by
  have hanchor : isAnchor (s.screen a) = true := by
    unfold groupAlignParse at h
    split at h
    · cases h
    · split_ifs at h with h1 h2
      cases h
      simpa using h1
  rw [isAnchor_iff] at hanchor
  have htrims : ∀ k, ((s.alignGroup a).screen k).chan.target = (s.screen k).chan.target
      ∧ ((s.alignGroup a).screen k).chan.applied = (s.screen k).chan.applied := by
    intro k
    rw [State.screen_alignGroup]
    dsimp only
    split
    · exact State.placed_trims k _ s
    · exact ⟨rfl, rfl⟩
  refine hs.of_screens (fun k hk => ?_) (fun k => by rw [State.screen_alignGroup]; exact ⟨rfl, rfl, rfl⟩) fun h1 h2 => ?_
  · have hlaw := hk.withChan (c := ((s.alignGroup a).screen k).chan) (by rw [(htrims k).1]; exact hk.target)
      (by rw [(htrims k).2]; exact hk.applied)
    rw [State.screen_alignGroup] at hlaw ⊢
    obtain ⟨h1, h2, h3, h4⟩ := hlaw
    refine ⟨h1, h2, fun haligned => ?_, h4⟩
    simp only [Bool.or_eq_true, decide_eq_true_eq] at haligned
    rcases haligned with rfl | hold
    · exact hanchor
    · exact h3 hold
  · rw [(htrims 0).1, (htrims 0).2]
    exact ⟨h1, h2⟩

theorem State.ScreensLawful.report {r : RegReport} {g : Segment} (v : Int) (h : regReportAccept r s = .ok g)
    (hs : s.ScreensLawful) : (s.report r.seq r.screen v).ScreensLawful := by
  have hkey : r.screen ≠ 0 := by
    intro hr
    unfold regReportAccept at h
    split at h
    · cases h
    · split_ifs at h
  have hscreen : ∀ k, (s.report r.seq r.screen v).screen k = if k = r.screen then { s.screen r.screen with
      chan := reported r.seq (regOutcome r.seq v (s.screen r.screen)) (s.screen r.screen) } else s.screen k := by
    intro k
    rw [State.report_eq, State.screen_evalLines, State.screen_latchIf]
    unfold State.storeReport
    rw [State.screen_modChan]
    rfl
  refine hs.of_screens (fun k hk => ?_) (fun k => ?_) fun h1 h2 => ?_
  · rw [hscreen k]
    split
    · rename_i hr
      rw [hr] at hk
      have happlied : (reported r.seq (regOutcome r.seq v (s.screen r.screen)) (s.screen r.screen)).applied
          = (s.screen r.screen).chan.applied := by unfold reported; split <;> rfl
      refine hk.withChan ?_ (by rw [happlied]; exact hk.applied)
      unfold reported
      split
      · exact hk.target
      · exact hk.target
      · have := hk.limit
        exact clamp_mem (by omega) _
    · exact hk
  · rw [hscreen k]
    split
    · rename_i hr; rw [hr]; exact ⟨rfl, rfl, rfl⟩
    · exact ⟨rfl, rfl, rfl⟩
  · rw [hscreen 0, if_neg hkey.symm]
    exact ⟨h1, h2⟩

/-! ### A structural record -/

theorem State.screen_putRecord (j k : ScreenId) (r : StructRecord) (s : State) :
    (s.putRecord j r).screen k =
      { (if k = j then (s.screen k).rewritten j r else s.screen k) with
        aligned := if touches s.screens (tableAfter s.screens j r) j k || !(isAnchor (tableAfter s.screens j r)[k]) then false
          else (if k = j then (s.screen k).rewritten j r else s.screen k).aligned } := by
  have hphase : ∀ (c : Prop) [Decidable c] (u : State) (p : PhaseShared),
      (if c then u.withPhase p else u).screen k = u.screen k := by
    intro c _ u p; split <;> rfl
  unfold State.putRecord
  rw [State.screen_evalLines, State.screen_evalHold, hphase, State.screen_withRing, State.screen_mapScreens]

theorem tableAfter_get (t : Vector Screen 24) (j k : ScreenId) (r : StructRecord) :
    (tableAfter t j r)[k] = if k = j then t[j].restructure r else t[k] := by
  unfold tableAfter
  by_cases h : k = j
  · subst h; simp
  · have hne : j.val ≠ k.val := fun e => h (Fin.ext e.symm)
    rw [if_neg h]
    simp [Vector.getElem_set_ne _ _ hne]

theorem keyScreenRefusal_none {t : Vector Screen 24} {j : ScreenId} {r : StructRecord} (h : keyScreenRefusal t j r = none) :
    (j = 0 → r.present = true → r.kind = .anchor ∧ r.dist = 0)
    ∧ (j = 0 → r.present = false → ∀ k : ScreenId, k ≠ 0 → t[k].present = false)
    ∧ (j ≠ 0 → r.present = true → t[(0 : ScreenId)].present = true) := by
  unfold keyScreenRefusal at h
  split_ifs at h with h1 h2 h3 h4 h5 h6
  · refine ⟨fun _ _ => ⟨?_, not_not.mp h4⟩, fun _ hp => (by simp [h2] at hp), fun hj => absurd h1 hj⟩
    cases hk : r.kind with
    | anchor => rfl
    | relative => exact absurd hk h3
  · refine ⟨fun _ hp => absurd hp h2, fun _ _ k hk => ?_, fun hj => absurd h1 hj⟩
    simp only [List.any_eq_true, Bool.and_eq_true, bne_iff_ne, not_exists, not_and, Bool.not_eq_true] at h5
    exact h5 k (mem_allScreens k) hk
  · refine ⟨fun hj => absurd hj h1, fun hj => absurd hj h1, fun _ hp => ?_⟩
    cases h0 : t[(0 : ScreenId)].present with
    | true => rfl
    | false => exact absurd ⟨hp, h0⟩ h6

theorem recordRefusal_none {j : ScreenId} {r : StructRecord} (h : recordRefusal s j r = none) :
    keyScreenRefusal s.screens j r = none ∧ s.groupBusy j r = false ∧ s.runRefuses j r = false := by
  unfold recordRefusal at h
  split at h
  · cases h
  · rename_i hkey
    split at h
    · cases h
    · rename_i hpass
      simp only [Bool.or_eq_true, not_or, Bool.not_eq_true] at hpass
      exact ⟨hkey, hpass.1, hpass.2⟩

theorem State.ScreensLawful.record {payload : List Word} {fs rest : List Field} {r : StructRecord} (j : ScreenId)
    (hparse : parseRecord payload s fs = .ok (r, rest)) (hpass : recordRefusal s j r = none) (hs : s.ScreensLawful) :
    (s.putRecord j r).ScreensLawful := by
  obtain ⟨head, pres, kind, dist, lim, exts, ext, -, hfields, hr⟩ := parseRecord_ok.mp hparse
  have hlimit : 0 ≤ r.limit ∧ r.limit ≤ 3000 := by
    have := hfields.limRange
    rw [hr]
    simp only [recordOf]
    omega
  obtain ⟨hkey1, hkey2, hkey3⟩ := keyScreenRefusal_none (recordRefusal_none hpass).1
  obtain ⟨hall, hkey, htarget, happlied⟩ := hs
  have hscreen := fun k => s.screen_putRecord j k r
  have hpresent : ∀ k, ((s.putRecord j r).screen k).present = if k = j then r.present else (s.screen k).present := by
    intro k; rw [hscreen k]; dsimp only; split <;> rfl
  have hkind : ∀ k, ((s.putRecord j r).screen k).kind = if k = j then r.kind else (s.screen k).kind := by
    intro k; rw [hscreen k]; dsimp only; split <;> rfl
  have haligned : ∀ k, ((s.putRecord j r).screen k).aligned = true →
      ((s.putRecord j r).screen k).present = true ∧ ((s.putRecord j r).screen k).kind = .anchor := by
    intro k h
    have hafter : isAnchor (tableAfter s.screens j r)[k] = true := by
      rw [hscreen k] at h
      dsimp only at h
      split at h
      · cases h
      · rename_i hn; simp only [Bool.or_eq_true, not_or, Bool.not_eq_true'] at hn; simpa using hn.2
    rw [isAnchor_iff, tableAfter_get] at hafter
    rw [hpresent k, hkind k]
    split
    · rename_i hk; rw [if_pos hk] at hafter; exact hafter
    · rename_i hk; rw [if_neg hk] at hafter; exact hafter
  refine ⟨fun k => ?_, ?_, ?_⟩
  · have hal := haligned k
    rw [hscreen k] at hal ⊢
    by_cases hk : k = j
    · simp only [if_pos hk] at hal ⊢
      obtain ⟨-, -, -, -, -, -, -, -, -, -, -, hslew⟩ := hall k
      refine ⟨?_, fun _ => ⟨rfl, rfl⟩, hal, ?_, Nat.zero_le _, hlimit.1, hlimit.2, ?_, ?_, ?_, ?_, hslew⟩
      · cases h : r.present <;> simp [Screen.rewritten, Screen.restructure, h]
      · cases h : r.present <;> simp [Screen.rewritten, h]
      all_goals
        have := hlimit.1
        unfold Screen.rewritten Screen.restructure
        dsimp only
        split <;> simp only <;> omega
    · simp only [if_neg hk] at hal ⊢
      obtain ⟨h1, h2, -, h4⟩ := hall k
      exact ⟨h1, h2, hal, h4⟩
  · rintro ⟨k, hk⟩
    rw [hpresent k] at hk
    rw [hpresent 0, hkind 0]
    by_cases hj : (0 : ScreenId) = j
    · simp only [if_pos hj]
      have hrp : r.present = true := by
        by_contra hn
        rw [Bool.not_eq_true] at hn
        split at hk
        · rw [hk] at hn; cases hn
        · rename_i hkj
          have := hkey2 hj.symm hn k (fun h => hkj (h.trans hj))
          rw [State.screen, this] at hk
          cases hk
      obtain ⟨h1, h2⟩ := hkey1 hj.symm hrp
      refine ⟨hrp, h1, ?_⟩
      rw [hscreen 0, if_pos hj]
      exact h2
    · simp only [if_neg hj]
      have h0 : (s.screen 0).present = true := by
        split at hk
        · exact hkey3 (fun h => hj h.symm) hk
        · exact (hkey ⟨k, hk⟩).1
      obtain ⟨h1, h2, h3⟩ := hkey ⟨0, h0⟩
      refine ⟨h1, h2, ?_⟩
      rw [hscreen 0, if_neg hj]
      exact h3
  · rw [hscreen 0]
    dsimp only
    split
    · unfold Screen.rewritten
      dsimp only
      split <;> exact ⟨rfl, rfl⟩
    · exact ⟨htarget, happlied⟩

theorem Change.screensLawful {t : State} (h : Change s t) (hs : s.ScreensLawful) : t.ScreensLawful := by
  cases h with
  | same h => exact hs.congr fun k => by unfold State.screen; rw [h.screens]
  | reset =>
    have hk : ∀ k, State.reset.screen k = Screen.reset := fun k => by simp [State.screen, State.reset]
    unfold State.ScreensLawful Screen.Lawful
    simp only [hk]
    decide
  | cycle => exact hs.driveCycle
  | turnaround reply => exact hs.turnaround reply
  | seam =>
    obtain ⟨u, hweb, hsame⟩ := WebOnly.seamPulse s
    exact hs.congr fun k => by unfold State.screen; rw [hsame.screens, hweb.1]
  | record j hparse hpass => exact hs.record j hparse hpass
  | tuning j s h => exact hs.tuning j h
  | align h => exact hs.align h
  | engage =>
    exact State.ScreensLawful.congr (foldl_keeps (inv := State.ScreensLawful)
      (fun u j hu => State.engageScreen_lawful j hu) _ hs) fun _ => rfl
  | lift =>
    exact State.ScreensLawful.congr (foldl_keeps (inv := State.ScreensLawful)
      (fun u j hu => State.liftScreen_lawful j hu) _ hs) fun _ => rfl
  | clear h => exact hs.clear h
  | runDrain =>
    refine State.ScreensLawful.congr (foldl_keeps (inv := State.ScreensLawful)
      (fun u j hu => State.liftScreen_lawful j hu) _ ?_) fun k => s.screen_runDrain k
    exact hs.congr fun _ => rfl
  | runAbort =>
    refine hs.of_eng (fun k => by rw [State.screen_runAbort]) (fun k => ?_) (fun k => ?_) <;>
      rw [State.screen_runAbort] <;> obtain ⟨h1, h2, h3⟩ := (s.screen k).eng.abort_keeps
    · exact h1
    · dsimp only
      rw [h2, h3]
      exact id
  | report v h => exact hs.report v h
  | _ => exact hs.congr fun _ => rfl

end
end Sys2Proof.Machine

/-! ### The statement -/

open Sys2Proof Sys2Proof.Machine

/-- Settles O56: every operation of a block keeps every screen lawful, and the laws from screen to screen. -/
theorem screensStayLawful : Obligations.ScreensStayLawful := keptByStep_of_change Change.screensLawful

end

section
/-! PROOFS. What the operations of the Web Map leave of its fields, and the planned set. -/

namespace Sys2Proof.Machine

/-! ### The fields of the Web Map -/

/-- Two Web Maps agree in all but the queue and the roll table. -/
def WebMap.Passes (w w' : WebMap) : Prop := w' = { w with queue := w'.queue, rolls := w'.rolls }

theorem WebMap.Passes.refl (w : WebMap) : w.Passes w := rfl

theorem WebMap.Passes.trans {w w' w'' : WebMap} (h1 : w.Passes w') (h2 : w'.Passes w'') : w.Passes w'' := by
  unfold WebMap.Passes at *
  rw [h2, h1]

theorem WebMap.Passes.of_eq {w w' : WebMap} (h : w' = w) : w.Passes w' := h ▸ rfl

theorem State.closeRoll_passes (reason : CloseReason) (r : Roll) (s : State) : s.web.Passes (s.closeRoll reason r).web := by
  rw [State.closeRoll_web]
  rfl

theorem State.nextRollTest_passes (id : Nat) (s : State) : s.web.Passes (s.nextRollTest id).web := by
  rcases s.nextRollTest_cases id with h | ⟨r, -, -, -, h⟩ <;> rw [h]
  · exact .refl _
  · exact State.closeRoll_passes _ r s

theorem State.gradeRecord_passes (way : WayOut) (g : Segment) (s : State) : s.web.Passes (s.gradeRecord way g).web := by
  rw [State.gradeRecord_web]
  rfl

theorem State.foldl_nextRollTest_passes (l : List Roll) (s : State) :
    s.web.Passes (l.foldl (fun u r => u.nextRollTest r.id) s).web := by
  induction l generalizing s with
  | nil => exact .refl _
  | cons r l ih => exact (State.nextRollTest_passes r.id s).trans (ih _)

theorem State.evict_passes (s : State) : s.web.Passes s.evict.web := by
  rcases s.evict_cases with ⟨-, h⟩ | ⟨g, rest, -, h⟩ <;> rw [h]
  · exact .refl _
  · refine WebMap.Passes.trans ?_ (State.nextRollTest_passes _ _)
    rw [State.latch_web]
    exact WebMap.Passes.trans (w' := (s.withQueue rest).web) rfl (State.gradeRecord_passes _ _ _)

/-- The Web Map after a record has joined the tail, but for the next seq. -/
def State.joined (s : State) : State :=
  (((s.withQueue (s.web.queue ++ [s.newSegment])).withRolls
    (s.web.rolls.map fun r => if r.id = s.newSegment.roll then r.gain s.newSegment.seq else r)).web.rolls.takeWhile
      fun r => r.id != s.newSegment.roll).foldl (fun u r => u.nextRollTest r.id)
    ((s.withQueue (s.web.queue ++ [s.newSegment])).withRolls
      (s.web.rolls.map fun r => if r.id = s.newSegment.roll then r.gain s.newSegment.seq else r))

theorem State.appendSegment_eq (s : State) : s.appendSegment = s.joined.advanceSeq := rfl

theorem State.joined_passes (s : State) : s.web.Passes s.joined.web :=
  WebMap.Passes.trans (w' := ((s.withQueue (s.web.queue ++ [s.newSegment])).withRolls _).web) rfl
    (State.foldl_nextRollTest_passes _ _)

theorem State.joined_queue (s : State) : s.joined.web.queue = s.web.queue ++ [s.newSegment] :=
  State.foldl_nextRollTest_queue _ _

/-- The fields of the Web Map that neither the line state nor a seam reaches. -/
structure WebMap.SameRun (w w' : WebMap) : Prop where
  lineState : w'.lineState = w.lineState
  nextRollId : w'.nextRollId = w.nextRollId
  lastSeam : w'.lastSeam = w.lastSeam

theorem WebMap.SameRun.trans {w w' w'' : WebMap} (h1 : w.SameRun w') (h2 : w'.SameRun w'') : w.SameRun w'' :=
  ⟨h2.lineState.trans h1.lineState, h2.nextRollId.trans h1.nextRollId, h2.lastSeam.trans h1.lastSeam⟩

theorem WebMap.Passes.sameRun {w w' : WebMap} (h : w.Passes w') : w.SameRun w' := by
  unfold WebMap.Passes at h
  rw [h]
  exact ⟨rfl, rfl, rfl⟩

theorem State.advanceSeq_sameRun (s : State) : s.web.SameRun s.advanceSeq.web := by
  rw [State.advanceSeq_web]
  split <;> exact ⟨rfl, rfl, rfl⟩

theorem State.create_sameRun (s : State) : s.web.SameRun s.create.web := by
  rcases s.create_cases with ⟨-, h⟩ | ⟨-, -, h⟩ | ⟨-, -, h⟩ <;> rw [h]
  · exact (WebMap.Passes.of_eq (State.latch_web _ _)).sameRun
  · exact s.joined_passes.sameRun.trans (State.advanceSeq_sameRun _)
  · exact s.evict_passes.sameRun.trans (s.evict.joined_passes.sameRun.trans (State.advanceSeq_sameRun _))

theorem EngOnly.web_passes {s t : State} (h : EngOnly s t) : s.web.Passes t.web := by
  rw [h.frame]
  rfl

theorem AdvanceOnly.web_passes {s t : State} (h : AdvanceOnly s t) : s.web.Passes t.web := by
  rw [h.frame]
  rfl

theorem State.keyCrossing_sameRun (r : Int) (s : State) : s.web.SameRun (s.keyCrossing r).web := by
  unfold State.keyCrossing
  dsimp only
  refine WebMap.SameRun.trans (WebMap.Passes.sameRun ?_) (State.create_sameRun _)
  exact WebMap.Passes.trans (.of_eq (by rw [State.withPhase_web, State.modChan_web]))
    (EngOnly.web_passes (EngOnly.cross 0 true _))

theorem State.advanceChannel_sameRun (k : ScreenId) (dw : Int) (s : State) :
    s.web.SameRun (s.advanceChannel k dw).web := by
  by_cases hground : s.breaksGround k dw
  · obtain ⟨hp, hle, hg⟩ := hground
    have h : s.advanceChannel k dw = s.keyCrossing ((s.screen k).chan.r + dw) := by
      unfold State.advanceChannel
      rw [if_neg (by simp [hp])]
      exact (if_pos hle).trans (if_pos hg)
    rw [h]
    exact s.keyCrossing_sameRun _
  · exact (AdvanceOnly.advanceChannel hground).web_passes.sameRun

theorem State.foldl_sameRun {s : State} {deltaP : Int} (l : List ScreenId) (u : State) :
    u.web.SameRun (l.foldl (s.channelStep deltaP) u).web := by
  induction l generalizing u with
  | nil => exact ⟨rfl, rfl, rfl⟩
  | cons k l ih => exact (State.advanceChannel_sameRun k _ u).trans (ih _)

theorem State.slewAll_web (s : State) : s.slewAll.web = s.web := by
  unfold State.slewAll
  rw [State.mapScreens_web]

theorem State.advancePosition_web (s : State) : s.advancePosition.web = s.web := by
  unfold State.advancePosition
  rw [State.latchIf_web, State.withPos_web]

theorem State.advanced_sameRun (s : State) : s.web.SameRun s.advanced.web := by
  have h := State.foldl_sameRun (s := s.advancePosition) (deltaP := s.pos.deltaP) allScreens s.advancePosition.slewAll
  rwa [State.slewAll_web, State.advancePosition_web] at h

/-! ### The exit test and a drain -/

theorem State.drainIfEmpty_web (s : State) : s.drainIfEmpty.web =
    if s.web.lineState = .drain ∧ s.web.queue = [] then { s.web with rolls := [], lineState := .setup } else s.web := by
  unfold State.drainIfEmpty
  split
  · unfold State.completeDrain
    simp only [State.withWeb_web, State.latch_web, State.closeAllRolls_web]
  · rfl

/-- A drain that completes takes the line to SETUP; nothing else moves the line state at an exit test. -/
def WebMap.SameLine (w w' : WebMap) : Prop :=
  w'.lineState = w.lineState ∨ (w.lineState = .drain ∧ w'.lineState = .setup)

theorem WebMap.SameLine.trans {w w' w'' : WebMap} (h1 : w.SameLine w') (h2 : w'.SameLine w'') : w.SameLine w'' := by
  rcases h1 with h1 | ⟨h1, h1'⟩
  · rcases h2 with h2 | ⟨h2, h2'⟩
    · exact .inl (h2.trans h1)
    · exact .inr ⟨h1 ▸ h2, h2'⟩
  · rcases h2 with h2 | ⟨h2, -⟩
    · exact .inr ⟨h1, h2.trans h1'⟩
    · rw [h1'] at h2
      cases h2

theorem WebMap.SameRun.sameLine {w w' : WebMap} (h : w.SameRun w') : w.SameLine w' := .inl h.lineState

theorem State.drainIfEmpty_sameLine (s : State) : s.web.SameLine s.drainIfEmpty.web := by
  rw [State.drainIfEmpty_web]
  split
  · rename_i h; exact .inr ⟨h.1, rfl⟩
  · exact .inl rfl

theorem State.exitHead_sameLine (g : Segment) (rest : List Segment) (s : State) :
    s.web.SameLine (s.exitHead g rest).web := by
  refine WebMap.SameLine.trans (WebMap.Passes.sameRun ?_).sameLine (State.drainIfEmpty_sameLine _)
  exact WebMap.Passes.trans (w' := (s.withQueue rest).web) rfl
    ((State.gradeRecord_passes _ _ _).trans (State.nextRollTest_passes _ _))

theorem State.exitLoop_sameLine (x : Int) (n : Nat) (s : State) : s.web.SameLine (s.exitLoop x n).web := by
  induction n generalizing s with
  | zero => exact .inl rfl
  | succ n ih =>
    unfold State.exitLoop
    split
    · exact .inl rfl
    · split
      · exact (State.exitHead_sameLine _ _ s).trans (ih _)
      · exact .inl rfl

theorem State.cameraTest_passes (s : State) : s.web.Passes s.cameraTest.web := by
  unfold State.cameraTest
  rw [State.latchIf_web]
  rfl

theorem State.webTests_sameLine (s : State) : s.web.SameLine s.webTests.web := by
  unfold State.webTests
  split
  · exact .inl rfl
  · refine s.cameraTest_passes.sameRun.sameLine.trans ?_
    unfold State.exitTest
    split
    · exact .inl rfl
    · exact State.exitLoop_sameLine _ _ _

theorem State.windowTests_web (s : State) : s.windowTests.web = s.web := by
  unfold State.windowTests
  rw [State.mapScreens_web]

theorem State.formSetpoints_web (s : State) : s.formSetpoints.web = s.web := by
  unfold State.formSetpoints
  rw [State.mapScreens_web]

theorem State.seamPulse_lineState (s : State) : s.seamPulse.web.lineState = s.web.lineState := by
  have h : (s.recordSeam (s.pos.p + s.line.dSeam)).web.lineState = s.web.lineState := by
    unfold State.recordSeam
    dsimp only
    split
    · rw [(State.nextRollTest_passes _ _).sameRun.lineState, State.withWeb_web]
    · rfl
  rcases s.seamPulse_cases with ⟨-, h1⟩ | ⟨-, -, -, -, h1⟩ | ⟨-, -, -, -, h1⟩ <;> rw [h1]
  · rw [State.evalLines_web, State.latch_web]
  · rw [State.evalLines_web, h]

/-- The exit tests of a drive cycle come last on the Web Map. -/
theorem State.driveCycle_web (s : State) : s.driveCycle.web = s.advanced.windowTests.formSetpoints.webTests.web := by
  rw [State.driveCycle_eq, State.evalLines_web, State.evalHold_web]
  unfold State.sendFrame
  rw [State.withRing_web]

theorem State.driveCycle_planned (s : State) : s.driveCycle.planned = s.planned := by
  have h : s.advanced.windowTests.formSetpoints.webTests.planned = s.advancePosition.planned := by
    rw [State.advanced, (CycleOnly.beforeSend s.pos.deltaP s.advancePosition).1]
  rw [State.driveCycle_eq, State.evalLines_planned, State.evalHold_planned]
  unfold State.sendFrame
  rw [State.withRing_planned, h]
  unfold State.advancePosition
  rw [State.latchIf_planned, State.withPos_planned]

theorem State.driveCycle_sameLine (s : State) : s.web.SameLine s.driveCycle.web := by
  rw [State.driveCycle_web]
  refine WebMap.SameLine.trans ?_ (State.webTests_sameLine _)
  rw [State.formSetpoints_web, State.windowTests_web]
  exact s.advanced_sameRun.sameLine

/-! ### The planned set -/

/-- A screen stands as the planned set says. -/
def PlannedOk (e : EngState) (planned : Bool) : Prop :=
  (e = .armed ∨ e = .lowering ∨ e = .printing → planned = true) ∧ (e = .ending → planned = false)

theorem State.PlannedFollows.intro {s : State} (h1 : s.web.lineState ≠ .run → s.planned = 0)
    (h2 : ∀ k, PlannedOk (s.engState k) (inSet s.planned k)) : s.PlannedFollows := ⟨h1, h2⟩

section
variable {s t : State}

/-- The planned set goes on following where it stands, the line does not leave RUN, and engagements only go on. -/
theorem State.PlannedFollows.proceeds (hs : s.PlannedFollows) (hplanned : t.planned = s.planned)
    (hline : s.web.SameLine t.web) (h : ∀ k, (s.screen k).eng.Proceeds (t.screen k).eng) : t.PlannedFollows := by
  obtain ⟨h1, h2⟩ := hs
  refine ⟨fun hrun => ?_, fun k => ⟨fun he => ?_, fun he => ?_⟩⟩ <;> rw [hplanned]
  · refine h1 fun hs => hrun ?_
    rcases hline with hl | ⟨hl, -⟩
    · rw [hl, hs]
    · rw [hs] at hl
      cases hl
  · exact (h2 k).1 ((h k).planned he)
  · exact (h2 k).2 ((h k).ending he)

theorem State.PlannedFollows.congr (hs : s.PlannedFollows) (hplanned : t.planned = s.planned)
    (hline : t.web.lineState = s.web.lineState) (h : ∀ k, (t.screen k).eng = (s.screen k).eng) : t.PlannedFollows :=
  hs.proceeds hplanned (.inl hline) fun k => by rw [h k]; exact .refl _

theorem State.PlannedFollows.evalHold (hs : s.PlannedFollows) : s.evalHold.PlannedFollows :=
  hs.congr (State.evalHold_planned s) (by rw [State.evalHold_web]) fun k => by rw [State.screen_evalHold]

/-- ENGAGE of one screen in RUN keeps the planned set following. -/
theorem State.engageScreen_plannedFollows (k : ScreenId) (hrun : s.web.lineState = .run) (hs : s.PlannedFollows) :
    (s.engageScreen k).PlannedFollows := by
  refine .intro (fun h => absurd hrun (by rwa [State.engageScreen_web] at h)) fun j => ?_
  have hj : PlannedOk (s.engState j) (inSet s.planned j) := hs.2 j
  rw [State.engageScreen_planned]
  unfold State.engState
  rw [State.engageScreen_screen]
  by_cases hjk : j = k
  · subst hjk
    unfold State.engState at hj ⊢
    cases h : (s.screen j).eng.state <;> simp_all [PlannedOk, Engagement.arm, inSet_addTo]
  · simp only [hjk, false_and, if_false]
    split
    · rw [inSet_addTo, decide_eq_false hjk, Bool.or_false]
      exact hj
    · exact hj

/-- A lifted screen stands as one that is not planned; the others stand as they did. -/
theorem PlannedOk.lift (n : Nat) (e : Engagement) : PlannedOk (e.lift n).state false := by
  unfold Engagement.lift PlannedOk
  cases h : e.state <;> simp [h]

theorem State.liftScreen_plannedOk {j : ScreenId} (k : ScreenId) (hj : PlannedOk (s.engState j) (inSet s.planned j)) :
    PlannedOk ((s.liftScreen k).engState j) (inSet (s.liftScreen k).planned j) := by
  rw [State.liftScreen_planned, inSet_dropFrom]
  unfold State.engState
  rw [State.liftScreen_screen]
  by_cases hjk : j = k
  · subst hjk
    rw [if_pos rfl, decide_eq_false (fun h => h rfl), Bool.and_false]
    exact .lift _ _
  · rw [if_neg hjk, decide_eq_true hjk, Bool.and_true]
    exact hj

theorem State.liftScreen_plannedFollows (k : ScreenId) (hs : s.PlannedFollows) : (s.liftScreen k).PlannedFollows := by
  refine .intro (fun h => ?_) fun j => State.liftScreen_plannedOk k (hs.2 j)
  have h0 : s.planned = 0 := hs.1 h
  rw [State.liftScreen_planned, h0]
  exact screenSet_ext fun j => by simp [inSet_dropFrom]

/-- Every planned screen lifted, no screen is planned. -/
theorem State.planned_liftPlanned (s : State) : s.liftPlanned.planned = 0 := by
  refine screenSet_ext fun k => ?_
  have h : ∀ (l : List ScreenId) (u : State), inSet (l.foldl (fun u j => u.liftScreen j) u).planned k
      = (inSet u.planned k && decide (k ∉ l)) := by
    intro l
    induction l with
    | nil => simp
    | cons j l ih =>
      intro u
      rw [List.foldl_cons, ih, State.liftScreen_planned, inSet_dropFrom]
      by_cases hkj : k = j <;> by_cases hkl : k ∈ l <;> simp [hkj, hkl]
  unfold State.liftPlanned
  rw [h]
  cases hk : inSet s.planned k <;> simp [hk, mem_allScreens]

theorem State.runDrain_plannedFollows (hs : s.PlannedFollows) : s.runDrain.PlannedFollows := by
  have hplanned : s.runDrain.planned = 0 := by
    unfold State.runDrain
    rw [State.evalLines_planned, State.evalHold_planned, (WebOnly.drainIfEmpty _).1]
    exact State.planned_liftPlanned _
  have hok : ∀ k, PlannedOk ((s.withWeb { s.web with lineState := .drain }).liftPlanned.engState k)
      (inSet (s.withWeb { s.web with lineState := .drain }).liftPlanned.planned k) := by
    intro k
    exact foldl_keeps (inv := fun u : State => PlannedOk (u.engState k) (inSet u.planned k))
      (fun u j hu => State.liftScreen_plannedOk j hu) _ (hs.2 k)
  refine .intro (fun _ => hplanned) fun k => ?_
  have hk := hok k
  rw [State.planned_liftPlanned] at hk
  rw [hplanned]
  unfold State.engState at hk ⊢
  rwa [State.screen_runDrain]

theorem State.runAbort_plannedFollows (s : State) : s.runAbort.PlannedFollows := by
  have hplanned : s.runAbort.planned = 0 := by rw [State.runAbort_eq]
  refine .intro (fun _ => hplanned) fun k => ?_
  rw [hplanned, show (0 : ScreenSet) = 0#24 from rfl, inSet_zero]
  unfold State.engState
  rw [State.screen_runAbort]
  unfold PlannedOk Engagement.abort
  cases h : (s.screen k).eng.state <;> simp [h]

theorem State.clear_plannedFollows (k : ScreenId) (hs : s.PlannedFollows) : (s.clear k).PlannedFollows := by
  have hplanned : (s.clear k).planned = s.planned := by
    rw [State.clear, State.evalHold_planned, State.modEng_planned]
  refine .intro (fun hrun => ?_) fun j => ?_
  · rw [hplanned]
    rw [State.clear, State.evalHold_web, State.modEng_web] at hrun
    exact hs.1 hrun
  have hj : PlannedOk (s.engState j) (inSet s.planned j) := hs.2 j
  rw [hplanned]
  unfold State.engState at hj ⊢
  rw [State.clear, State.screen_evalHold, State.screen_modEng]
  split
  · rename_i hjk
    subst hjk
    unfold State.cleared PlannedOk
    split
    · rename_i h; simp [h.1]
    · simp
  · exact hj

theorem State.putRecord_plannedFollows (j : ScreenId) (r : StructRecord) (hs : s.PlannedFollows) :
    (s.putRecord j r).PlannedFollows := by
  have hkept : (s.putRecord j r).planned = s.planned ∧ (s.putRecord j r).web = s.web := by
    unfold State.putRecord
    dsimp only
    rw [State.evalLines_planned, State.evalLines_web, State.evalHold_planned, State.evalHold_web]
    split
    · rw [State.withPhase_planned, State.withPhase_web, State.withRing_planned, State.withRing_web,
        State.mapScreens_planned, State.mapScreens_web]
      exact ⟨rfl, rfl⟩
    · rw [State.withRing_planned, State.withRing_web, State.mapScreens_planned, State.mapScreens_web]
      exact ⟨rfl, rfl⟩
  refine .intro (by rw [hkept.1, hkept.2]; exact hs.1) fun k => ?_
  have hk : PlannedOk (s.engState k) (inSet s.planned k) := hs.2 k
  rw [hkept.1]
  unfold State.engState at hk ⊢
  rw [State.screen_putRecord]
  dsimp only
  split
  · unfold Screen.rewritten PlannedOk
    dsimp only
    cases r.present <;> simp
  · exact hk

theorem engageParse_run {payload : List Word} {k : ScreenId} (h : engageParse payload s = .ok k) :
    s.web.lineState = .run := by
  unfold engageParse at h
  split at h
  · cases h
  · split_ifs at h with hrun
    exact not_not.mp hrun

theorem runBeginReason_setup (h : s.runBeginReason = none) : s.web.lineState = .setup := by
  unfold State.runBeginReason at h
  split_ifs at h with hsetup
  exact not_not.mp hsetup

theorem Change.plannedFollows (h : Change s t) (hs : s.PlannedFollows) : t.PlannedFollows := by
  cases h with
  | same h => exact hs.congr h.planned (by rw [h.web]) fun k => by unfold State.screen; rw [h.screens]
  | reset =>
    have hk : ∀ k, State.reset.screen k = Screen.reset := fun k => by simp [State.screen, State.reset]
    refine .intro (fun _ => rfl) fun k => ?_
    unfold State.engState
    rw [hk k]
    simp [PlannedOk, Screen.reset, Engagement.reset]
  | cycle =>
    exact hs.proceeds s.driveCycle_planned s.driveCycle_sameLine s.driveCycle_proceeds
  | turnaround reply =>
    refine hs.proceeds ?_ (.inl ?_) (s.turnaround_proceeds reply) <;> rw [State.turnaround_frame]
  | seam =>
    obtain ⟨u, hweb, hsame⟩ := WebOnly.seamPulse s
    exact hs.congr (by rw [hsame.planned, hweb.1]) s.seamPulse_lineState
      fun k => by unfold State.screen; rw [hsame.screens, hweb.1]
  | record j => exact State.putRecord_plannedFollows j _ hs
  | tuning j =>
    refine hs.congr rfl rfl fun k => ?_
    rw [State.screen_modScreen]
    split
    · rename_i hj; rw [hj]
    · rfl
  | align =>
    refine hs.congr ?_ ?_ fun k => by rw [State.screen_alignGroup]
    · unfold State.alignGroup
      rw [State.mapScreens_planned]
    · unfold State.alignGroup
      rw [State.mapScreens_web]
  | engage h =>
    have hrun := engageParse_run h
    exact (foldl_keeps (inv := fun u : State => u.web.lineState = .run ∧ u.PlannedFollows)
      (fun u j hu => ⟨by rw [State.engageScreen_web]; exact hu.1, State.engageScreen_plannedFollows j hu.1 hu.2⟩)
      _ ⟨hrun, hs⟩).2.evalHold
  | lift =>
    exact (foldl_keeps (inv := State.PlannedFollows) (fun u j hu => State.liftScreen_plannedFollows j hu) _ hs).evalHold
  | clear => exact State.clear_plannedFollows _ hs
  | runBegin h => exact .intro (fun hrun => absurd rfl hrun) hs.2
  | runDrain => exact State.runDrain_plannedFollows hs
  | runAbort => exact s.runAbort_plannedFollows
  | report v h =>
    refine hs.congr ?_ ?_ fun k => ?_ <;> rw [State.report_eq]
    · rw [State.evalLines_planned, State.latchIf_planned]
      exact State.modChan_planned _ _ _
    · rw [State.evalLines_web, State.latchIf_web]
      unfold State.storeReport
      rw [State.modChan_web]
      rfl
    · rw [State.screen_evalLines, State.screen_latchIf]
      unfold State.storeReport
      rw [State.screen_modChan]
      split
      · rename_i hk; rw [hk]; rfl
      · rfl
  | _ => exact hs.congr rfl rfl fun _ => rfl

end
end Sys2Proof.Machine

/-! ### The statement -/

open Sys2Proof Sys2Proof.Machine

/-- Settles O58: every change keeps the planned set following the line state and the engagement states. -/
theorem plannedSetFollowsEngagement : Obligations.PlannedSetFollowsEngagement :=
  keptByStep_of_change Change.plannedFollows

end

section
/-! PROOFS. The books of the Exit Grader: what gradings, NEXT_ROLL tests, evictions, exits and drains post to the roll
table and to the exit report queue, followed through the ledger of leavings. -/

namespace Sys2Proof.Machine

/-- State s keeps the books of ledger l, opened at state b; besides what its reports bring, these kinds have been
latched. -/
structure Books (b : State) (l : Ledger) (kinds : EventKind → Prop) (s : State) : Prop where
  webOnly : WebOnly b s
  rolls : s.web.rolls = l.rolls
  reports : s.reports = offeredTo b.reports l.offered
  latched : ∀ n e, hasKind (s.port n).latched e ↔ hasKind (b.port n).latched e ∨ ((b.port n).role.sees e
    ∧ ((e = .rollClosed ∧ ∃ r ∈ l.offered, r.isRoll) ∨ (e = .reportLost ∧ overflows b.reports l.offered) ∨ kinds e))

/-- No further kind. -/
def noKind : EventKind → Prop := fun _ => False

theorem Books.opened (b : State) : Books b ⟨b.web.rolls, []⟩ noKind b where
  webOnly := .refl b
  rolls := rfl
  reports := (offeredTo_nil _).symm
  latched := by simp [overflows, noKind]

section
variable {b s t : State} {l : Ledger} {kinds : EventKind → Prop}

theorem Books.mono (h : Books b l kinds s) {kinds' : EventKind → Prop} (hkinds : ∀ e, kinds e ↔ kinds' e) :
    Books b l kinds' s := { h with latched := fun n e => by rw [h.latched, hkinds] }

theorem Books.line (h : Books b l kinds s) : s.line = b.line := by rw [h.webOnly.1]

theorem Books.cure (h : Books b l kinds s) : s.cure = b.cure := by rw [h.webOnly.1]

/-- Offers post to the books. -/
theorem Books.offers {offered : List Report} (h : Books b l kinds s) (ho : Offers offered s t) :
    Books b ⟨t.web.rolls, l.offered ++ offered⟩ kinds t where
  webOnly := h.webOnly.trans ho.webOnly
  rolls := rfl
  reports := by rw [ho.reports, h.reports, offeredTo_append]
  latched n e := by
    obtain ⟨hrole, -⟩ := h.webOnly.2.keeps n
    rw [ho.latched, h.latched, hrole, overflows_append, h.reports]
    simp only [List.mem_append, or_and_right, exists_or]
    grind

theorem Books.latchIf (h : Books b l kinds s) (c : Bool) (k : EventKind) :
    Books b l (fun e => kinds e ∨ (c = true ∧ e = k)) (s.latchIf c k) where
  webOnly := h.webOnly.trans (.latchIf c k s)
  rolls := by rw [State.latchIf_web, h.rolls]
  reports := by rw [State.latchIf_reports, h.reports]
  latched n e := by
    obtain ⟨hrole, -⟩ := h.webOnly.2.keeps n
    rw [State.hasKind_latchIf, h.latched, hrole]
    grind

theorem Books.latch (h : Books b l kinds s) (k : EventKind) :
    Books b l (fun e => kinds e ∨ e = k) (s.latch k) :=
  (h.latchIf true k).mono (by simp)

/-- The rest of the Web Map is not in the books. -/
theorem Books.withWeb (h : Books b l kinds s) (w : WebMap) (hw : w.rolls = s.web.rolls) : Books b l kinds (s.withWeb w) where
  webOnly := h.webOnly.trans (.withWeb s w)
  rolls := hw.trans h.rolls
  reports := h.reports
  latched := h.latched

theorem Books.withQueue (h : Books b l kinds s) (q : List Segment) : Books b l kinds (s.withQueue q) := h.withWeb _ rfl

theorem Books.withRolls (h : Books b l kinds s) (rolls : List Roll) : Books b ⟨rolls, l.offered⟩ kinds (s.withRolls rolls) where
  webOnly := h.webOnly.trans (.withRolls s rolls)
  rolls := rfl
  reports := h.reports
  latched := h.latched

/-! ### Gradings (R149) -/

/-- A grading is a leaving of the ledger (R149, R157). -/
theorem Books.gradeRecord (h : Books b l kinds s) (way : WayOut) (g : Segment) :
    Books b (l.leave b.line b.cure way g)
      (fun e => kinds e ∨ ((gradeOf (faultsOf b.line b.cure way g)).isCure = true ∧ e = .cureFault))
      (s.gradeRecord way g) := by
  have hoffer := (h.withRolls (s.web.rolls.map fun r =>
    if r.id = g.roll then r.leave (gradeOf (faultsOf s.line s.cure way g)) g.length else r)).offers
      (.offer_segment (segmentReport way (faultsOf s.line s.cure way g) g) _)
  rw [State.offer_web, State.withRolls_web, h.rolls, h.line, h.cure] at hoffer
  have hgrade := hoffer.latchIf (gradeOf (faultsOf b.line b.cure way g)).isCure .cureFault
  unfold State.gradeRecord
  rw [h.rolls, h.line, h.cure]
  exact hgrade

/-! ### NEXT_ROLL tests (R106) -/

/-- The first roll with an id is the head of what stands from it on. -/
theorem find?_eq_dropWhile (id : Nat) (rolls : List Roll) :
    rolls.find? (fun r => r.id == id) = (rolls.dropWhile fun r => decide (r.id ≠ id)).head? := by
  induction rolls with
  | nil => rfl
  | cons r rolls ih =>
    by_cases h : r.id = id
    · simp [h]
    · rw [List.find?_cons_of_neg (by simp [h]), List.dropWhile_cons_of_pos (by simp [h]), ih]

/-- The NEXT_ROLL test closes the roll that the ledger's closes. -/
theorem State.nextRollTest_eq (id : Nat) (s : State) :
    s.nextRollTest id =
      match nextRollCloses s.web.queue id s.web.rolls with
      | none => s
      | some r => s.closeRoll .nextRoll r := by
  have hqueued : ∀ i, rollQueued s.web.queue i = true ↔ ∃ q ∈ s.web.queue, q.roll = i := by
    intro i
    simp [rollQueued]
  have hdrop : (s.web.rolls.dropWhile fun x => x.id != id) = s.web.rolls.dropWhile fun r => decide (r.id ≠ id) := by
    refine congrArg (List.dropWhile · _) (funext fun r => ?_)
    by_cases h : r.id = id <;> simp [h]
  unfold State.nextRollTest nextRollCloses
  rw [find?_eq_dropWhile, hdrop]
  cases hl : s.web.rolls.dropWhile fun r => decide (r.id ≠ id) with
  | nil => rfl
  | cons r later =>
    dsimp only [List.head?_cons]
    have hiff : (rollQueued s.web.queue id = false ∧ (List.drop 1 (r :: later)).any (fun x => rollQueued s.web.queue x.id) = true)
        ↔ (∀ q ∈ s.web.queue, q.roll ≠ id) ∧ ∃ q ∈ s.web.queue, ∃ x ∈ later, q.roll = x.id := by
      rw [← Bool.not_eq_true, hqueued, List.drop_one, List.tail_cons, List.any_eq_true]
      simp only [hqueued, not_exists, not_and]
      exact and_congr_right fun _ => ⟨fun ⟨x, hx, q, hq, h⟩ => ⟨q, hq, x, hx, h⟩, fun ⟨q, hq, x, hx, h⟩ => ⟨x, hx, q, hq, h⟩⟩
    by_cases hc : (∀ q ∈ s.web.queue, q.roll ≠ id) ∧ ∃ q ∈ s.web.queue, ∃ x ∈ later, q.roll = x.id
    · rw [if_pos (hiff.mpr hc), if_pos hc]
    · rw [if_neg (mt hiff.mp hc), if_neg hc]

/-- What the test closes stands in the table under its id. -/
theorem nextRollCloses_mem {queue : List Segment} {id : Nat} {rolls : List Roll} {r : Roll}
    (h : nextRollCloses queue id rolls = some r) : r ∈ rolls ∧ r.id = id := by
  unfold nextRollCloses at h
  split at h
  · cases h
  · rename_i x later hdrop
    split at h
    · cases h
      have hfind : rolls.find? (fun x => x.id == id) = some r := by rw [find?_eq_dropWhile, hdrop]; rfl
      exact ⟨List.mem_of_find?_eq_some hfind, by simpa using List.find?_some hfind⟩
    · cases h

/-- A NEXT_ROLL test is one of the ledger (R106, R158). -/
theorem Books.nextRollTest (h : Books b l kinds s) (id : Nat) :
    Books b (l.nextRoll s.web.queue id) kinds (s.nextRollTest id) := by
  rw [State.nextRollTest_eq, h.rolls]
  unfold Ledger.nextRoll
  cases hc : nextRollCloses s.web.queue id l.rolls with
  | none => exact h
  | some r =>
    have hclose := h.offers (.closeRoll .nextRoll s r)
    rw [State.closeRoll_web, h.rolls, (nextRollCloses_mem hc).2] at hclose
    dsimp only
    rwa [show (fun x : Roll => decide (x.id ≠ id)) = fun x => x.id != id from
      funext fun x => by by_cases hx : x.id = id <;> simp [hx]]

/-- Every roll closes as in the ledger (R92). -/
theorem Books.drain (h : Books b l kinds s) : Books b l.drain kinds (s.closeAllRolls .drain) := by
  have hclose := h.offers (.closeAllRolls .drain s)
  rwa [State.closeAllRolls_web, h.rolls] at hclose

/-- A drain that completes (R92). -/
theorem Books.completeDrain (h : Books b l kinds s) :
    Books b l.drain (fun e => kinds e ∨ e = .drainDone) s.completeDrain :=
  (h.drain.latch .drainDone).withWeb _ rfl

/-! ### Evictions (R97) -/

theorem Books.evict (h : Books b l kinds s) {g : Segment} {rest : List Segment} (hq : s.web.queue = g :: rest) :
    Books b ((l.leave b.line b.cure .evicted g).nextRoll rest g.roll) (fun e => kinds e ∨ e = .segmentEvicted) s.evict := by
  have hevict : s.evict = (((s.withQueue rest).gradeRecord .evicted g).latch .segmentEvicted).nextRollTest g.roll := by
    unfold State.evict
    rw [hq]
  have hqueue : (((s.withQueue rest).gradeRecord .evicted g).latch .segmentEvicted).web.queue = rest := by
    rw [State.latch_web, State.gradeRecord_web]
    rfl
  have hgrade := (((h.withQueue rest).gradeRecord .evicted g).latch .segmentEvicted).nextRollTest g.roll
  rw [hqueue] at hgrade
  rw [hevict]
  exact hgrade.mono fun e => by simp [faultsOf, gradeOf, Grade.isCure]

/-! ### A run of NEXT_ROLL tests (R95, step 6) -/

/-- NEXT_ROLL tests of these rolls in turn. -/
def Ledger.tests (queue : List Segment) (tested : List Roll) (l : Ledger) : Ledger :=
  tested.foldl (fun l r => l.nextRoll queue r.id) l

theorem Books.tests (h : Books b l kinds s) (tested : List Roll) :
    Books b (l.tests s.web.queue tested) kinds (tested.foldl (fun u r => u.nextRollTest r.id) s) := by
  induction tested generalizing s l with
  | nil => exact h
  | cons r tested ih =>
    have := ih (h.nextRollTest r.id)
    rwa [State.nextRollTest_queue] at this

/-- The roll table after a record has joined its roll. -/
def gained (g : Segment) (rolls : List Roll) : List Roll :=
  rolls.map fun r => if r.id = g.roll then r.gain g.seq else r

/-- The rolls before the one a record belongs to. -/
def rollsBefore (g : Segment) (rolls : List Roll) : List Roll := rolls.takeWhile fun r => r.id != g.roll

theorem gained_ids (g : Segment) (rolls : List Roll) : (gained g rolls).map Roll.id = rolls.map Roll.id := by
  unfold gained
  rw [List.map_map]
  refine List.map_congr_left fun r _ => ?_
  dsimp only [Function.comp]
  split <;> rfl

/-- A record that joins the tail: its roll gains it, and the rolls before it are tested (R95, steps 4 and 6). -/
def Ledger.joins (queue : List Segment) (g : Segment) (l : Ledger) : Ledger :=
  Ledger.tests (queue ++ [g]) (rollsBefore g (gained g l.rolls)) ⟨gained g l.rolls, l.offered⟩

theorem Books.joined (h : Books b l kinds s) : Books b (l.joins s.web.queue s.newSegment) kinds s.joined := by
  have := ((h.withQueue (s.web.queue ++ [s.newSegment])).withRolls (gained s.newSegment s.web.rolls)).tests
    (rollsBefore s.newSegment (gained s.newSegment s.web.rolls))
  rw [h.rolls] at this
  unfold Ledger.joins
  unfold State.joined
  rw [h.rolls]
  exact this

theorem Books.advanceSeq (h : Books b l kinds s) :
    Books b l (fun e => kinds e ∨ (s.web.nextSeq = 4294967295 ∧ e = .seqExhausted)) s.advanceSeq := by
  unfold State.advanceSeq
  split
  · rename_i hlast
    exact ((h.withWeb { s.web with exhausted := true } rfl).latch .seqExhausted).mono (by simp [hlast])
  · rename_i hlast
    exact (h.withWeb { s.web with nextSeq := s.web.nextSeq + 1 } rfl).mono (by simp [hlast])

/-! ### Exits (R100) -/

/-- A drain completes at the exit that empties the queue (R92). -/
def Ledger.drainIf (c : Prop) [Decidable c] (l : Ledger) : Ledger := if c then l.drain else l

theorem Books.drainIfEmpty (h : Books b l kinds s) :
    Books b (l.drainIf (s.web.lineState = .drain ∧ s.web.queue = []))
      (fun e => kinds e ∨ (s.web.lineState = .drain ∧ s.web.queue = [] ∧ e = .drainDone)) s.drainIfEmpty := by
  unfold State.drainIfEmpty Ledger.drainIf
  split
  · rename_i hc
    exact h.completeDrain.mono (by simp [hc.1, hc.2])
  · rename_i hc
    exact h.mono fun e => ⟨.inl, fun he => he.elim id fun he => absurd ⟨he.1, he.2.1⟩ hc⟩

end
end Sys2Proof.Machine
end

section
/-! PROOFS. LINE.PUT: its checks in order, the settings that pass them, and the statement. -/

namespace Sys2Proof.Machine

/-- The six fields of LINE.PUT stand in their ranges (R10). -/
structure LineFields (l d x i e h : Field) : Prop where
  repeatLow : 40000 ≤ l.value
  repeatHigh : l.value ≤ 204800
  seam : d.value ≤ 500000
  cameraLow : 1 ≤ x.value
  cameraHigh : x.value ≤ 4000000
  inspection : i.value ≤ 1
  tolerance : e.value ≤ 1000
  hold : h.value ≤ 1

/-- The settings that six fields give. -/
def settingsOf (l d x i e h : Field) : LineSettings :=
  { lScr := l.value, dSeam := d.value, xInsp := x.value, inspectionRequired := decide (i.value = 1),
    tolerance := e.value, holdOnFault := decide (h.value = 1) }

section
variable {s : State} {n : PortId} {tag : Byte} {payload : List Word} {l d x i e h f : Field}

theorem firstOutside_lineRanges : firstOutside lineRanges [l, d, x, i, e, h] = none ↔ LineFields l d x i e h := by
  simp only [lineRanges, firstOutside_cons, Nat.not_lt_zero, false_or]
  constructor
  · intro hnone
    split_ifs at hnone
    constructor <;> omega
  · rintro ⟨h1, h2, h3, h4, h5, h6, h7, h8⟩
    rw [if_neg (by omega), if_neg (by omega), if_neg (by omega), if_neg (by omega), if_neg (by omega), if_neg (by omega)]
    rfl

theorem linePutParse_state (hbad : s.web.lineState ≠ .setup ∨ s.allInactive = false) :
    linePutParse payload s = .error (refuse .state 0) := if_pos hbad

section
variable (hsetup : s.web.lineState = .setup) (hrest : s.allInactive = true)
include hsetup hrest

theorem linePutParse_tooFew (hfew : (fields payload).length < 6) : linePutParse payload s = .error (tooFew payload) := by
  simp [linePutParse, hsetup, hrest, exactly_tooFew hfew]

theorem linePutParse_beyond (hf : (fields payload)[6]? = some f) : linePutParse payload s = .error (naming f) := by
  simp [linePutParse, hsetup, hrest, exactly_beyond hf]

theorem linePutParse_outside (hlen : (fields payload).length = 6) (hf : firstOutOfRange lineRanges (fields payload) f) :
    linePutParse payload s = .error (naming f) := by
  simp [linePutParse, hsetup, hrest, exactly_ok hlen, firstOutside_of_first hf]

theorem linePutParse_fields (hfields : fields payload = [l, d, x, i, e, h]) (hranges : LineFields l d x i e h) :
    linePutParse payload s = .ok (settingsOf l d x i e h) := by
  have hbool : ∀ v : Nat, (v == 1) = decide (v = 1) := fun v => by by_cases hv : v = 1 <;> simp [hv]
  have hexactly : exactly 6 payload = .ok [l, d, x, i, e, h] := by
    rw [exactly_ok (by rw [hfields]; rfl), hfields]
  have hinside := firstOutside_lineRanges.mpr hranges
  simp [linePutParse, hsetup, hrest, hexactly, hinside, settingsOf, valueAt, hbool]

end

/-- What passes the checks of LINE.PUT. -/
theorem linePutParse_cases {y : LineSettings} (hok : linePutParse payload s = .ok y) :
    s.web.lineState = .setup ∧ ∃ l d x i e h, LineFields l d x i e h ∧ y = settingsOf l d x i e h := by
  by_cases hbad : s.web.lineState ≠ .setup ∨ s.allInactive = false
  · rw [linePutParse_state hbad] at hok; cases hok
  rw [not_or, not_not, Bool.not_eq_false] at hbad
  obtain ⟨hsetup, hrest⟩ := hbad
  refine ⟨hsetup, ?_⟩
  by_cases hfew : (fields payload).length < 6
  · rw [linePutParse_tooFew hsetup hrest hfew] at hok; cases hok
  cases hbeyond : (fields payload)[6]? with
  | some f => rw [linePutParse_beyond hsetup hrest hbeyond] at hok; cases hok
  | none =>
    have hlen : (fields payload).length = 6 := by
      have := List.getElem?_eq_none_iff.mp hbeyond
      omega
    obtain ⟨l, d, x, i, e, h, hfields⟩ : ∃ l d x i e h, fields payload = [l, d, x, i, e, h] := by
      match hp : fields payload, hlen with
      | [l, d, x, i, e, h], _ => exact ⟨l, d, x, i, e, h, rfl⟩
    have hinside : firstOutside lineRanges [l, d, x, i, e, h] = none := by
      cases hout : firstOutside lineRanges [l, d, x, i, e, h] with
      | none => rfl
      | some a =>
        have herr : linePutParse payload s = .error a := by
          simp [linePutParse, hsetup, hrest, exactly_ok hlen, hfields, hout]
        rw [herr] at hok
        cases hok
    have hranges := firstOutside_lineRanges.mp hinside
    rw [linePutParse_fields hsetup hrest hfields hranges] at hok
    cases hok
    exact ⟨l, d, x, i, e, h, hranges, rfl⟩

/-! ### LINE.PUT as a command -/

theorem takeLinePut_error (n : PortId) {a : Answer} (h : linePutParse payload s = .error a) :
    takeLinePut n payload s = (s, a) := by
  simp [takeLinePut, h]

theorem takeLinePut_ok (n : PortId) {y : LineSettings} (h : linePutParse payload s = .ok y) :
    takeLinePut n payload s = (s.putLine y, accept y.words) := by
  simp [takeLinePut, h]

theorem exec_linePut_error {a : Answer} (hears : s.hears n .line payload) (h : linePutParse payload s = .error a) :
    exec (.linePut n tag payload) s = .next (s.answered n 0x10 tag payload a.code a.index a.words) := by
  obtain ⟨hrun, hrole, hlen⟩ := hears
  have hparse : linePutParse payload (s.receiveFrame n 0x10 tag payload) = .error a := h
  exact exec_unchanged (k := .linePut) ⟨hrun, hlen⟩ (by rw [hrole]; rfl) (takeLinePut_error n hparse)

theorem exec_linePut_ok {y : LineSettings} (hears : s.hears n .line payload) (h : linePutParse payload s = .ok y) :
    exec (.linePut n tag payload) s = .next ((s.putLine y).answered n 0x10 tag payload .ok 0 y.words) := by
  obtain ⟨hrun, hrole, hlen⟩ := hears
  have hparse : linePutParse payload (s.receiveFrame n 0x10 tag payload) = .ok y := h
  exact exec_changed (k := .linePut) (t := s.putLine y) ⟨hrun, hlen⟩ (by rw [hrole]; rfl) (takeLinePut_ok n hparse)

/-- The settings replaced, the repeat staged anew, and HOLD evaluated (R11, R33, R84). -/
theorem State.putLine_eq (y : LineSettings) (s : State) : s.putLine y = { s with
    line := y
    phase := { s.phase with lFab := stagedRepeat y.lScr s.phase.stretch }
    ring := { s.ring with hold := (s.putLine y).ring.hold } } := rfl

theorem State.hold_putLine (y : LineSettings) (s : State) : (s.putLine y).ring.hold = true ↔ s.ring.state = .lost
    ∨ (y.holdOnFault = true ∧ ∃ k, inSet s.planned k = true ∧ s.engState k = .faulted) :=
  State.holdCondition_iff ((s.withLine y).withPhase { s.phase with lFab := stagedRepeat y.lScr s.phase.stretch })

theorem settingsOf_words (hranges : LineFields l d x i e h) : (settingsOf l d x i e h).words =
    words2 l.value ++ words2 d.value ++ words2 x.value ++ words1 i.value ++ words1 e.value ++ words1 h.value := by
  have hflag : ∀ v : Nat, v ≤ 1 → flagWord (decide (v = 1)) = words1 v := by
    intro v hv
    obtain rfl | rfl : v = 0 ∨ v = 1 := by omega
    · rfl
    · rfl
  unfold LineSettings.words settingsOf
  rw [hflag _ hranges.inspection, hflag _ hranges.hold]

end

end Sys2Proof.Machine

/-! ### The statement -/

open Sys2Proof Sys2Proof.Machine

/-- Settles O30: the parse makes the checks of R10 in their order, and the settings that pass are stored whole. -/
theorem linePutReplacesSettings : Obligations.LinePutReplacesSettings := by
  unfold Obligations.LinePutReplacesSettings
  constructor
  · rintro s n tag payload l d x i e h lFab hold hears hsetup hrest hfields h1 h2 h3 h4 h5 h6 h7 h8 rfl hhold
    have hranges : LineFields l d x i e h := ⟨h1, h2, h3, h4, h5, h6, h7, h8⟩
    have hparse := linePutParse_fields hsetup (s.allInactive_iff.mpr hrest) hfields hranges
    have hheld : (s.putLine (settingsOf l d x i e h)).ring.hold = hold := by
      rw [Bool.eq_iff_iff, State.hold_putLine, hhold]
      simp [settingsOf]
    rw [exec_linePut_ok hears hparse, settingsOf_words hranges, State.putLine_eq, hheld]
    rfl
  · rintro s n tag payload bounds hears rfl refused hrefused
    have hanswer : ∀ a : Answer, a.words = [] → linePutParse payload s = .error a → refused a.code a.index :=
      fun a hwords h => (hrefused _ _).mpr (by rw [exec_linePut_error hears h, hwords])
    refine ⟨fun hrun => ?_, fun k h1 h2 h3 => ?_, fun hsetup hrest => ⟨fun hfew => ?_, fun f hf => ?_, fun hlen f hf => ?_⟩⟩
    · exact hanswer (refuse .state 0) rfl (linePutParse_state (.inl hrun))
    · refine hanswer (refuse .state 0) rfl (linePutParse_state (.inr ?_))
      rw [← Bool.not_eq_true, State.allInactive_iff]
      intro hall
      rcases hall k with h | h | h
      exacts [h1 h, h2 h, h3 h]
    all_goals have hidle := s.allInactive_iff.mpr hrest
    · exact hanswer (tooFew payload) rfl (linePutParse_tooFew hsetup hidle hfew)
    · exact hanswer (naming f) rfl (linePutParse_beyond hsetup hidle hf)
    · exact hanswer (naming f) rfl (linePutParse_outside hsetup hidle hlen hf)

end

section
/-! PROOFS. The queue stripped of what cycles, ticks and grades write to its records; and the channels stay in range. -/

namespace Sys2Proof.Machine

/-! ### Records stripped -/

/-- A record without what crossings, the camera test and dose ticks write to it. -/
def Segment.bare (g : Segment) : Segment := { g with printed := 0, camera := false, dose := 0, peak := 0, cureUnknown := false }

/-- A queue with its records stripped. -/
def bare (q : List Segment) : List Segment := q.map Segment.bare

theorem bare_map {f : Segment → Segment} (h : ∀ g, (f g).bare = g.bare) (q : List Segment) : bare (q.map f) = bare q := by
  unfold bare
  rw [List.map_map]
  exact List.map_congr_left fun g _ => h g

theorem bare_of_unprinted {q q' : List Segment} (h : unprinted q' = unprinted q) : bare q' = bare q := by
  have hbare : ∀ q, bare (unprinted q) = bare q :=
    fun q => bare_map (f := fun g => { g with printed := 0 }) (fun _ => rfl) q
  rw [← hbare q', h, hbare]

theorem Segment.dosed_bare (p : Int) (tBase : Nat) (spans : List (Int × Zone)) (g : Segment) :
    (g.dosed p tBase spans).bare = g.bare := by
  unfold Segment.dosed
  dsimp only
  split <;> rfl

theorem Segment.bare_inj {g g' : Segment} (h : g.bare = g'.bare) :
    g.seq = g'.seq ∧ g.roll = g'.roll ∧ g.start = g'.start ∧ g.length = g'.length ∧ g.regs = g'.regs :=
  ⟨(congrArg Segment.seq h :), (congrArg Segment.roll h :), (congrArg Segment.start h :),
    (congrArg Segment.length h :), (congrArg Segment.regs h :)⟩

theorem EngOnly.bare {s t : State} (h : EngOnly s t) : bare t.web.queue = bare s.web.queue := bare_of_unprinted h.queue

theorem AdvanceOnly.bare {s t : State} (h : AdvanceOnly s t) : bare t.web.queue = bare s.web.queue :=
  bare_of_unprinted h.queue

theorem State.addDoses_bare (s : State) : bare s.addDoses.web.queue = bare s.web.queue :=
  bare_map (fun g => g.dosed_bare _ _ _) _

theorem State.cameraTest_bare (s : State) : bare s.cameraTest.web.queue = bare s.web.queue := by
  unfold State.cameraTest
  rw [State.latchIf_web]
  exact bare_map (f := fun g => { g with camera := g.camera || s.line.xInsp ≤ s.pos.p - g.start }) (fun _ => rfl) _

/-! ### What a creation appends and an exit takes -/

/-- A record of the queue after a creation was queued, or is the new one, as long as screen 0's repeat. -/
theorem State.create_mem {s : State} {g : Segment} (hg : g ∈ s.create.web.queue) :
    g ∈ s.web.queue ∨ g.length = (s.screen 0).chan.lcur := by
  rcases s.create_cases with ⟨-, h⟩ | ⟨-, -, h⟩ | ⟨-, -, h⟩ <;> rw [h] at hg
  · rw [State.latch_web] at hg
    exact .inl hg
  · rw [State.appendSegment_queue, List.mem_append, List.mem_singleton] at hg
    exact hg.imp id fun hg => by rw [hg]; rfl
  · rw [State.appendSegment_queue, List.mem_append, List.mem_singleton, State.evict_queue] at hg
    refine hg.imp List.mem_of_mem_tail fun hg => ?_
    rw [hg, ← (WebOnly.evict s).screen 0]
    rfl

theorem State.drainIfEmpty_queue (s : State) : s.drainIfEmpty.web.queue = s.web.queue := by
  rw [State.drainIfEmpty_web]
  split <;> rfl

theorem State.exitHead_queue (g : Segment) (rest : List Segment) (s : State) : (s.exitHead g rest).web.queue = rest := by
  unfold State.exitHead
  rw [State.drainIfEmpty_queue, State.nextRollTest_queue, State.gradeRecord_web]
  rfl

/-- Records leave at the exit from the head. -/
theorem State.exitLoop_queue (x : Int) (n : Nat) (s : State) : (s.exitLoop x n).web.queue <:+ s.web.queue := by
  induction n generalizing s with
  | zero => exact List.suffix_refl _
  | succ n ih =>
    unfold State.exitLoop
    split
    · exact List.suffix_refl _
    · rename_i g rest hq
      split
      · have := ih (s.exitHead g rest)
        rw [State.exitHead_queue] at this
        exact hq ▸ this.trans (List.suffix_cons g rest)
      · exact List.suffix_refl _

theorem State.webTests_queue (s : State) : bare s.webTests.web.queue <:+ bare s.web.queue := by
  unfold State.webTests
  split
  · exact List.suffix_refl _
  · rw [← s.cameraTest_bare]
    unfold State.exitTest
    split
    · exact List.suffix_refl _
    · exact (State.exitLoop_queue _ _ _).map _

/-! ### Lengths and accumulators in range -/

/-- The lengths of a queue are in range. -/
def LengthsFit (q : List Segment) : Prop := ∀ g ∈ q, lengthInRange g.length

/-- Every length of a queue is one of another. -/
def LengthsFrom (q q' : List Segment) : Prop := ∀ g ∈ q', ∃ g' ∈ q, g'.length = g.length

theorem LengthsFrom.refl (q : List Segment) : LengthsFrom q q := fun g hg => ⟨g, hg, rfl⟩

theorem LengthsFrom.of_subset {q q' : List Segment} (hsub : bare q' ⊆ bare q) : LengthsFrom q q' := by
  intro g hg
  obtain ⟨g', hg', hbare⟩ := List.mem_map.mp (hsub (List.mem_map_of_mem hg))
  obtain ⟨-, -, -, hlength, -⟩ := Segment.bare_inj hbare
  exact ⟨g', hg', hlength⟩

theorem LengthsFrom.of_bare {q q' : List Segment} (h : bare q' = bare q) : LengthsFrom q q' :=
  .of_subset (h ▸ List.Subset.refl _)

theorem LengthsFrom.map {f : Segment → Segment} (h : ∀ g, (f g).length = g.length) (q : List Segment) :
    LengthsFrom q (q.map f) := by
  intro g hg
  obtain ⟨g', hg', rfl⟩ := List.mem_map.mp hg
  exact ⟨g', hg', (h g').symm⟩

theorem LengthsFit.of_from {q q' : List Segment} (h : LengthsFit q) (hfrom : LengthsFrom q q') : LengthsFit q' := by
  intro g hg
  obtain ⟨g', hg', hlength⟩ := hfrom g hg
  exact hlength ▸ h g' hg'

/-- The accumulator, the repeat length, the gear constant and the setpoint of a channel are in range (R32, R33, R41,
R42). -/
def Channel.Fits (c : Channel) : Prop :=
  0 ≤ c.r ∧ c.r < c.lcur ∧ lengthInRange c.lcur ∧ c.gear = 4294967296 / c.lcur ∧ 0 ≤ c.setpoint ∧ c.setpoint ≤ 65535

/-- The slew of a screen is in range (R28). -/
def Screen.SlewFits (x : Screen) : Prop := 1 ≤ x.tuning.slew ∧ x.tuning.slew ≤ 64

/-- The staged repeat is formed of a stretch in range (R33). -/
def FabricFits (lScr : Int) (x : PhaseShared) : Prop :=
  40000 ≤ lScr ∧ lScr ≤ 204800 ∧ -2048 ≤ x.stretch ∧ x.stretch ≤ 2048 ∧ x.lFab = stagedRepeat lScr x.stretch

theorem State.channelsInRange_iff (s : State) : s.ChannelsInRange ↔
    (0 ≤ s.pos.p ∧ s.pos.p ≤ 1099511627775) ∧ (∀ k, (s.screen k).chan.Fits ∧ (s.screen k).SlewFits)
      ∧ FabricFits s.line.lScr s.phase ∧ LengthsFit s.web.queue := by
  unfold State.ChannelsInRange Channel.Fits Screen.SlewFits FabricFits LengthsFit stagedRepeat
  simp only [and_assoc]

theorem FabricFits.range {lScr : Int} {x : PhaseShared} (h : FabricFits lScr x) : lengthInRange x.lFab := by
  obtain ⟨h1, h2, h3, h4, h5⟩ := h
  exact h5 ▸ stagedRepeat_mem h1 h2 h3 h4

/-! ### One channel's advance -/

/-- One crossing suffices: an accumulator moved by no more than the shortest repeat is back in range after it (R37,
R39). -/
theorem Channel.Fits.advanced {c : Channel} (h : c.Fits) {rho newLength : Int} (hnew : lengthInRange newLength)
    (hrho : c.r - 38750 ≤ rho ∧ rho ≤ c.r + 38750) : (c.advanced rho newLength).Fits := by
  obtain ⟨hlow, hhigh, hlcur, hgear, hset⟩ := h
  have hlength := hnew
  obtain ⟨hshort, -⟩ := hnew
  unfold Channel.advanced Channel.forward Channel.backward
  split_ifs
  · exact ⟨by dsimp only; omega, by dsimp only; omega, hlength, rfl, hset⟩
  · exact ⟨by dsimp only; omega, by dsimp only; omega, hlength, rfl, hset⟩
  · exact ⟨by dsimp only; omega, by dsimp only; omega, hlcur, hgear, hset⟩

/-- What the channel advance keeps in range. -/
structure State.GearsFit (s : State) : Prop where
  chan : ∀ k, (s.screen k).chan.Fits
  fabric : lengthInRange s.phase.lFab
  queue : LengthsFit s.web.queue

section
variable {s t : State}

theorem State.GearsFit.lengthUnder (h : s.GearsFit) (k : ScreenId) : lengthInRange (s.lengthUnder k) := by
  unfold State.lengthUnder
  cases hg : containing s.web.queue (s.design k) with
  | none => exact h.fabric
  | some g => exact h.queue g (containing_some hg).1

theorem State.GearsFit.crossingLength (h : s.GearsFit) (k : ScreenId) (dw : Int) :
    lengthInRange (s.crossingLength k dw) := by
  unfold State.crossingLength
  split
  · exact h.fabric
  · exact h.lengthUnder k

theorem State.advanceChannel_lFab (k : ScreenId) (dw : Int) (s : State) :
    (s.advanceChannel k dw).phase.lFab = s.phase.lFab := by
  rw [(CycleOnly.advanceChannel k dw s).1]

/-- The queue after a channel's advance: but for a new record as long as the staged repeat, as it was. -/
theorem State.GearsFit.advanceChannel_lengths (h : s.GearsFit) (k : ScreenId) (dw : Int) :
    LengthsFit (s.advanceChannel k dw).web.queue := by
  by_cases hground : s.breaksGround k dw
  · obtain ⟨hp, hle, hg⟩ := hground
    have hkey : s.advanceChannel k dw = s.keyCrossing ((s.screen k).chan.r + dw) := by
      unfold State.advanceChannel
      rw [if_neg (by simp [hp])]
      exact (if_pos hle).trans (if_pos hg)
    rw [hkey]
    unfold State.keyCrossing
    dsimp only
    intro g hmem
    rcases State.create_mem hmem with hold | hnew
    · have hbare := (EngOnly.cross 0 true ((s.modChan 0 (Channel.forward ((s.screen k).chan.r + dw) s.phase.lFab)).withPhase
        { (s.modChan 0 (Channel.forward ((s.screen k).chan.r + dw) s.phase.lFab)).phase with
          highWater := ((s.modChan 0 (Channel.forward ((s.screen k).chan.r + dw) s.phase.lFab)).screen 0).chan.n })).bare
      rw [State.withPhase_web, State.modChan_web] at hbare
      exact h.queue.of_from (.of_bare hbare) g hold
    · rw [hnew, State.cross_screen, if_pos rfl, State.screen_withPhase, State.screen_modChan, if_pos rfl]
      exact h.fabric
  · exact h.queue.of_from (.of_bare (AdvanceOnly.advanceChannel hground).bare)

theorem State.GearsFit.advanceChannel (h : s.GearsFit) (k : ScreenId) {dw : Int} (hdw : -38750 ≤ dw ∧ dw ≤ 38750) :
    (s.advanceChannel k dw).GearsFit where
  chan j := by
    rw [State.advanceChannel_screen]
    split
    · exact (h.chan k).advanced (h.crossingLength k dw) (by omega)
    · exact h.chan j
  fabric := State.advanceChannel_lFab k dw s ▸ h.fabric
  queue := h.advanceChannel_lengths k dw

/-! ### The whole cycle -/

/-- Trims that move by 64 at most move an effective trim by twice that at most (R3). -/
theorem effTrim_near {t t' : Vector Screen 24}
    (hsame : ∀ k : ScreenId, t'[k].present = t[k].present ∧ t'[k].kind = t[k].kind ∧ t'[k].ext = t[k].ext)
    (hnear : ∀ k : ScreenId, -64 ≤ t'[k].chan.applied - t[k].chan.applied ∧ t'[k].chan.applied - t[k].chan.applied ≤ 64)
    (k : ScreenId) : -128 ≤ effTrim t' k - effTrim t k ∧ effTrim t' k - effTrim t k ≤ 128 := by
  have hk := hnear k
  unfold effTrim
  rw [anchorOf_congr fun a => ⟨(hsame a).1, (hsame a).2.1⟩, (hsame k).1, (hsame k).2.1]
  split
  · omega
  · cases t[k].kind with
    | anchor => dsimp only; omega
    | relative =>
      cases anchorOf t k with
      | none => dsimp only; omega
      | some a =>
        have ha := hnear a
        dsimp only
        rw [(hsame a).2.2, (hsame k).2.2]
        split <;> omega

/-- A slew is a step of its size at most (R35). -/
theorem slewed_near {applied target slew : Int} (h : 0 ≤ slew ∧ slew ≤ 64) :
    -64 ≤ slewed applied target slew - applied ∧ slewed applied target slew - applied ≤ 64 := by
  unfold slewed
  split_ifs <;> omega

theorem State.effTrim_slewAll (hslew : ∀ k, (s.screen k).SlewFits) (k : ScreenId) :
    -128 ≤ effTrim s.slewAll.screens k - effTrim s.screens k ∧ effTrim s.slewAll.screens k - effTrim s.screens k ≤ 128 := by
  have hscreen : ∀ j : ScreenId, s.slewAll.screens[j] = (s.screen j).slew := fun j => s.screen_slewAll j
  refine effTrim_near (fun j => ?_) (fun j => ?_) k <;> rw [hscreen j]
  · rw [Screen.slew_eq]
    exact ⟨rfl, rfl, rfl⟩
  · have hj := hslew j
    unfold Screen.SlewFits at hj
    unfold Screen.slew
    split
    · exact slewed_near (by omega)
    · rw [show s.screens[j] = s.screen j from rfl]
      omega

/-- A drive cycle moves P by 2,000 at most (R6). -/
theorem Position.deltaP_mem (x : Position) (h : 0 ≤ x.p ∧ x.p ≤ 1099511627775) : -2000 ≤ x.deltaP ∧ x.deltaP ≤ 2000 := by
  have hclamped := clamp_mem (by decide : (-2000 : Int) ≤ 2000) x.change
  unfold Position.deltaP Position.newP Position.clamped clamp topP
  unfold clamp at hclamped
  omega

theorem State.GearsFit.foldl {deltaP : Int} (hdelta : -2000 ≤ deltaP ∧ deltaP ≤ 2000)
    (hslew : ∀ k, (s.screen k).SlewFits) (l : List ScreenId) {u : State} (h : u.GearsFit) :
    (l.foldl (s.channelStep deltaP) u).GearsFit := by
  refine foldl_keeps (inv := State.GearsFit) (fun u k hu => ?_) l h
  have := State.effTrim_slewAll hslew k
  exact hu.advanceChannel k (by omega)

/-- A setpoint formed of an accumulator in range is in range (R42). -/
theorem Channel.Fits.setpoint {c : Channel} (h : c.Fits) :
    0 ≤ c.r * c.gear / 65536 ∧ c.r * c.gear / 65536 ≤ 65535 := by
  obtain ⟨hlow, hhigh, ⟨hshort, hlong⟩, hgear, -⟩ := h
  have hgear0 : 0 ≤ c.gear := by rw [hgear]; exact Int.ediv_nonneg (by decide) (by omega)
  have hmul : c.lcur * c.gear ≤ 4294967296 := by rw [hgear]; exact Int.mul_ediv_self_le (by omega)
  have hprod : c.r * c.gear + c.gear ≤ c.lcur * c.gear := by nlinarith
  have hgearpos : 0 < c.gear := by
    rw [hgear]
    exact Int.le_ediv_of_mul_le (by omega) (by omega)
  constructor
  · exact Int.ediv_nonneg (Int.mul_nonneg hlow hgear0) (by decide)
  · omega

/-! ### Every change -/

theorem State.advanced_pos (s : State) : s.advanced.pos = s.advancePosition.pos :=
  (CycleOnly.advanceChannels s.pos.deltaP s.advancePosition).pos

theorem State.gearsFit_advanced (hp : 0 ≤ s.pos.p ∧ s.pos.p ≤ 1099511627775) (hslew : ∀ k, (s.screen k).SlewFits)
    (h : s.GearsFit) : s.advanced.GearsFit := by
  have hscreen := s.screen_advancePosition
  refine State.GearsFit.foldl (s := s.advancePosition) (s.pos.deltaP_mem hp) (fun k => by rw [hscreen]; exact hslew k) _
    ⟨fun k => ?_, ?_, ?_⟩
  · rw [State.screen_slewAll, hscreen, Screen.slew_eq]
    exact h.chan k
  · have hphase : s.advancePosition.slewAll.phase = s.phase := by
      unfold State.slewAll State.advancePosition
      rw [State.mapScreens_phase, State.latchIf_phase, State.withPos_phase]
    rw [hphase]
    exact h.fabric
  · rw [State.slewAll_web, State.advancePosition_web]
    exact h.queue

theorem Screen.window_chan (arriving : Nat) (x : Screen) :
    (x.window arriving).chan = x.chan ∧ (x.window arriving).tuning = x.tuning := by
  unfold Screen.window
  split_ifs <;> exact ⟨rfl, rfl⟩

theorem Screen.formed_fits {x : Screen} (h : x.chan.Fits) : x.formed.chan.Fits := by
  have hset := h.setpoint
  obtain ⟨h1, h2, h3, h4, h5⟩ := h
  unfold Screen.formed
  split
  · exact ⟨h1, h2, h3, h4, hset⟩
  · exact ⟨h1, h2, h3, h4, h5⟩

theorem State.driveCycle_line (s : State) : s.driveCycle.line = s.line := by
  have h : s.advanced.windowTests.formSetpoints.webTests.line = s.advancePosition.line := by
    rw [State.advanced, (CycleOnly.beforeSend s.pos.deltaP s.advancePosition).1]
  rw [State.driveCycle_eq, State.evalLines_line, State.evalHold_line]
  unfold State.sendFrame
  rw [State.withRing_line, h]
  unfold State.advancePosition
  rw [State.latchIf_line, State.withPos_line]

theorem State.driveCycle_staged (s : State) :
    s.driveCycle.phase.stretch = s.phase.stretch ∧ s.driveCycle.phase.lFab = s.phase.lFab := by
  have h : s.advanced.windowTests.formSetpoints.webTests.phase
      = { s.advancePosition.phase with highWater := s.advanced.windowTests.formSetpoints.webTests.phase.highWater } := by
    rw [State.advanced, (CycleOnly.beforeSend s.pos.deltaP s.advancePosition).1]
  rw [State.driveCycle_eq, State.evalLines_phase, State.evalHold_phase]
  unfold State.sendFrame
  rw [State.withRing_phase, h]
  unfold State.advancePosition
  rw [State.latchIf_phase, State.withPos_phase]
  exact ⟨rfl, rfl⟩

theorem State.ChannelsInRange.driveCycle (hs : s.ChannelsInRange) : s.driveCycle.ChannelsInRange := by
  obtain ⟨hp, hfits, hfabric, hqueue⟩ := s.channelsInRange_iff.mp hs
  have hadvanced := State.gearsFit_advanced hp (fun k => (hfits k).2) ⟨fun k => (hfits k).1, hfabric.range, hqueue⟩
  refine (State.channelsInRange_iff _).mpr ⟨?_, fun k => ⟨?_, ?_⟩, ?_, ?_⟩
  · rw [State.driveCycle_pos]
    rw [Position.advance_p]
    exact clamp_mem (by decide : (0 : Int) ≤ topP) _
  · rw [State.screen_driveCycle]
    exact Screen.formed_fits (by rw [(Screen.window_chan _ _).1]; exact hadvanced.chan k)
  · have htuning : (s.driveCycle.screen k).tuning = (s.screen k).tuning := by
      rw [State.screen_driveCycle, Screen.formed_eq]
      dsimp only
      rw [(Screen.window_chan _ _).2, ScreensAdvance.advanced s k, State.screen_slewAll, State.screen_advancePosition,
        Screen.slew_eq]
    unfold Screen.SlewFits
    rw [htuning]
    exact (hfits k).2
  · obtain ⟨h1, h2⟩ := s.driveCycle_staged
    unfold FabricFits
    rw [State.driveCycle_line, h1, h2]
    exact hfabric
  · refine hadvanced.queue.of_from (.of_subset ?_)
    rw [State.driveCycle_web]
    have hsuffix := State.webTests_queue s.advanced.windowTests.formSetpoints
    rw [State.formSetpoints_web, State.windowTests_web] at hsuffix
    exact hsuffix.subset

/-- The channels stay in range where accumulators, settings and lengths do. -/
theorem State.ChannelsInRange.of_fits (hs : s.ChannelsInRange) (hp : t.pos.p = s.pos.p)
    (hchan : ∀ k, (s.screen k).chan.Fits → (t.screen k).chan.Fits)
    (htuning : ∀ k, (t.screen k).tuning.slew = (s.screen k).tuning.slew)
    (hline : t.line.lScr = s.line.lScr) (hphase : t.phase.stretch = s.phase.stretch ∧ t.phase.lFab = s.phase.lFab)
    (hqueue : LengthsFrom s.web.queue t.web.queue) : t.ChannelsInRange := by
  obtain ⟨hpos, hfits, hfabric, hlengths⟩ := s.channelsInRange_iff.mp hs
  refine t.channelsInRange_iff.mpr ⟨hp ▸ hpos, fun k => ⟨hchan k (hfits k).1, ?_⟩, ?_, hlengths.of_from hqueue⟩
  · unfold Screen.SlewFits
    rw [htuning k]
    exact (hfits k).2
  · unfold FabricFits
    rw [hline, hphase.1, hphase.2]
    exact hfabric

/-- Where P, the accumulators, the slews and the settings stand, only the queue matters. -/
theorem State.ChannelsInRange.congr (hs : s.ChannelsInRange) (hp : t.pos.p = s.pos.p)
    (hscreen : ∀ k, (t.screen k).chan = (s.screen k).chan ∧ (t.screen k).tuning = (s.screen k).tuning)
    (hline : t.line = s.line) (hphase : t.phase = s.phase) (hqueue : LengthsFrom s.web.queue t.web.queue) :
    t.ChannelsInRange :=
  hs.of_fits hp (fun k h => by rw [(hscreen k).1]; exact h) (fun k => by rw [(hscreen k).2]) (by rw [hline])
    (by rw [hphase]; exact ⟨rfl, rfl⟩) hqueue

/-- A change of the Web Map alone. -/
theorem State.ChannelsInRange.of_web (hs : s.ChannelsInRange) (hweb : WebOnly s t)
    (hqueue : LengthsFrom s.web.queue t.web.queue) : t.ChannelsInRange :=
  hs.congr (by rw [hweb.pos]) (fun k => by rw [hweb.screen k]; exact ⟨rfl, rfl⟩) (by rw [hweb.1]) (by rw [hweb.1]) hqueue

/-- A change of the planned set and the engagement records alone. -/
theorem State.ChannelsInRange.of_plan (hs : s.ChannelsInRange) (hplan : PlanOnly s t) : t.ChannelsInRange :=
  hs.congr (by rw [hplan.pos]) (fun k => by rw [hplan.2 k]; exact ⟨rfl, rfl⟩) (by rw [hplan.1]) (by rw [hplan.1])
    (by rw [hplan.1]; exact .refl _)

theorem State.recordSeam_lengths (c : Int) (s : State) : LengthsFrom s.web.queue (s.recordSeam c).web.queue := by
  have hqueue : (s.recordSeam c).web.queue = s.web.queue.map fun g =>
      if c ≤ g.lastCoord then { g with roll := s.web.nextRollId, seam := g.seam || g.holds c } else g := by
    unfold State.recordSeam
    dsimp only
    split
    · rw [State.nextRollTest_queue, State.withWeb_web]
    · rfl
  rw [hqueue]
  exact .map (fun g => by split <;> rfl) _

theorem State.seamPulse_lengths (s : State) : LengthsFrom s.web.queue s.seamPulse.web.queue := by
  rcases s.seamPulse_cases with ⟨-, h⟩ | ⟨-, -, -, -, h⟩ | ⟨-, -, -, -, h⟩ <;> rw [h]
  · exact .refl _
  · rw [State.evalLines_web, State.latch_web]
    exact .refl _
  · rw [State.evalLines_web]
    exact State.recordSeam_lengths _ s

theorem State.evalHold_channels (hs : s.ChannelsInRange) : s.evalHold.ChannelsInRange :=
  hs.congr (by rw [State.evalHold_pos]) (fun k => by rw [State.screen_evalHold]; exact ⟨rfl, rfl⟩)
    (State.evalHold_line s) (State.evalHold_phase s) (by rw [State.evalHold_web]; exact .refl _)

theorem State.evalLines_channels (hs : s.ChannelsInRange) : s.evalLines.ChannelsInRange :=
  hs.congr (by rw [State.evalLines_pos]) (fun k => by rw [State.screen_evalLines]; exact ⟨rfl, rfl⟩)
    (State.evalLines_line s) (State.evalLines_phase s) (by rw [State.evalLines_web]; exact .refl _)

theorem State.reset_channels : State.reset.ChannelsInRange := by
  have hk : ∀ k, State.reset.screen k = Screen.reset := fun k => by simp [State.screen, State.reset]
  refine State.reset.channelsInRange_iff.mpr ⟨by decide, fun k => ?_, ?_, by simp [LengthsFit, State.reset, WebMap.reset]⟩
  · rw [hk k]
    constructor
    · unfold Channel.Fits lengthInRange; decide
    · unfold Screen.SlewFits; decide
  · unfold FabricFits; decide

theorem State.placed_fits (hs : s.GearsFit) (k : ScreenId) {c : Channel} (h : c.Fits) : (s.placed k c).Fits := by
  obtain ⟨-, -, -, -, hset⟩ := h
  unfold State.placed
  cases hg : containing s.web.queue (s.design k) with
  | some g =>
    obtain ⟨hmem, hlow, hhigh⟩ := containing_some hg
    exact ⟨by dsimp only; omega, by dsimp only; omega, hs.queue g hmem, rfl, hset⟩
  | none =>
    obtain ⟨-, -, hlcur, -⟩ := hs.chan 0
    have hpos : 0 < (s.screen 0).chan.lcur := lt_of_lt_of_le (by decide) hlcur.1
    exact ⟨Int.emod_nonneg _ hpos.ne', Int.emod_lt_of_pos _ hpos, hlcur, rfl, hset⟩

theorem State.ChannelsInRange.gearsFit (hs : s.ChannelsInRange) : s.GearsFit := by
  obtain ⟨-, hfits, hfabric, hqueue⟩ := s.channelsInRange_iff.mp hs
  exact ⟨fun k => (hfits k).1, hfabric.range, hqueue⟩

theorem State.ChannelsInRange.align (a : ScreenId) (hs : s.ChannelsInRange) : (s.alignGroup a).ChannelsInRange := by
  refine hs.of_fits ?_ (fun k h => ?_) (fun k => by rw [State.screen_alignGroup]) ?_ ?_ ?_
  · unfold State.alignGroup; rw [State.mapScreens_pos]
  · rw [State.screen_alignGroup]
    dsimp only
    split
    · exact State.placed_fits hs.gearsFit k h
    · exact h
  · unfold State.alignGroup; rw [State.mapScreens_line]
  · unfold State.alignGroup; rw [State.mapScreens_phase]; exact ⟨rfl, rfl⟩
  · unfold State.alignGroup; rw [State.mapScreens_web]; exact .refl _

theorem State.ChannelsInRange.tuning {payload : List Word} {fs rest : List Field} {x : Tuning} (j : ScreenId)
    (h : parseTuning payload fs = .ok (x, rest)) (hs : s.ChannelsInRange) :
    (s.modScreen j fun y => { y with tuning := x }).ChannelsInRange := by
  obtain ⟨lead, slew, gain, deadband, step, -, hranges, rfl⟩ := parseTuning_ok.mp h
  obtain ⟨hpos, hfits, hfabric, hqueue⟩ := s.channelsInRange_iff.mp hs
  refine (State.channelsInRange_iff _).mpr ⟨hpos, fun k => ?_, hfabric, hqueue⟩
  rw [State.screen_modScreen]
  split
  · have hslew := hranges.slewRange
    exact ⟨(hfits j).1, by unfold Screen.SlewFits; dsimp only; omega⟩
  · exact hfits k

theorem State.ChannelsInRange.stretch (v : Int) (hs : s.ChannelsInRange) :
    (s.stageStretch (clamp (-2048) 2048 v)).ChannelsInRange := by
  obtain ⟨hpos, hfits, ⟨h1, h2, -⟩, hqueue⟩ := s.channelsInRange_iff.mp hs
  have hclamp := clamp_mem (by decide : (-2048 : Int) ≤ 2048) v
  exact (State.channelsInRange_iff _).mpr ⟨hpos, hfits, ⟨h1, h2, hclamp.1, hclamp.2, rfl⟩, hqueue⟩

theorem State.ChannelsInRange.putLine {payload : List Word} {x : LineSettings} (h : linePutParse payload s = .ok x)
    (hs : s.ChannelsInRange) : (s.putLine x).ChannelsInRange := by
  obtain ⟨-, l, d, i, e, g, o, hranges, rfl⟩ := linePutParse_cases h
  obtain ⟨hpos, hfits, ⟨-, -, h3, h4, -⟩, hqueue⟩ := s.channelsInRange_iff.mp hs
  have h1 := hranges.repeatLow
  have h2 := hranges.repeatHigh
  exact State.evalHold_channels ((State.channelsInRange_iff _).mpr
    ⟨hpos, hfits, ⟨by simp [settingsOf]; omega, by simp [settingsOf]; omega, h3, h4, rfl⟩, hqueue⟩)

theorem State.ChannelsInRange.report (seq : Nat) (k : ScreenId) (v : Int) (hs : s.ChannelsInRange) :
    (s.report seq k v).ChannelsInRange := by
  rw [State.report_eq]
  refine State.evalLines_channels ?_
  have hscreen : ∀ j, ((s.storeReport seq k v).latchIf (limitBites (s.screen k) (regOutcome seq v (s.screen k)))
      .trimAtLimit).screen j = if j = k then { s.screen k with
        chan := reported seq (regOutcome seq v (s.screen k)) (s.screen k) } else s.screen j := by
    intro j
    rw [State.screen_latchIf]
    unfold State.storeReport
    rw [State.screen_modChan]
    rfl
  have hkept : ∀ (o : RegOutcome) (x : Screen), x.chan.Fits → (reported seq o x).Fits := by
    rintro o x ⟨h1, h2, h3, h4, h5⟩
    unfold reported
    split <;> exact ⟨h1, h2, h3, h4, h5⟩
  refine hs.of_fits ?_ (fun j h => ?_) (fun j => ?_) ?_ ?_ ?_
  · rw [State.latchIf_pos]; rfl
  · rw [hscreen j]
    split
    · rename_i hj
      subst hj
      exact hkept _ _ h
    · exact h
  · rw [hscreen j]
    split
    · rename_i hj; rw [hj]
    · rfl
  · rw [State.latchIf_line]; rfl
  · rw [State.latchIf_phase]; exact ⟨rfl, rfl⟩
  · rw [State.latchIf_web]
    unfold State.storeReport
    rw [State.modChan_web]
    exact .map (f := fun g => if g.seq = seq then { g with regs := storeEntry (entryFor s.line.tolerance k v) g.regs }
      else g) (fun g => by split <;> rfl) _

theorem State.evalLines_eq (s : State) : s.evalLines = { s with ports := s.evalLines.ports } := by
  unfold State.evalLines State.mapPorts
  rfl
/-- What a structural record leaves unchanged (R26). -/
theorem State.putRecord_frame (j : ScreenId) (r : StructRecord) (s : State) : s.putRecord j r = { s with
    screens := (s.putRecord j r).screens
    phase := { s.phase with highWater := if j = 0 then 0 else s.phase.highWater }
    ring := { s.ring with
      state := ringAfterWrite s.ring.state (tableAfter s.screens j r), hold := (s.putRecord j r).ring.hold }
    ports := (s.putRecord j r).ports } := by
  unfold State.putRecord
  dsimp only
  generalize ringAfterWrite s.ring.state (tableAfter s.screens j r) = ring
  generalize hm : (s.mapScreens _) = u
  have hu : u = { s with screens := u.screens } := by rw [← hm]; rfl
  rw [State.evalLines_eq]
  by_cases hj : j = 0
  · rw [if_pos hj, if_pos hj, hu]
    rfl
  · rw [if_neg hj, if_neg hj, hu]
    rfl
/-- A record resets at most the accumulator of its channel, to the start of a repeat (R26). -/
theorem Screen.rewritten_fits (j : ScreenId) (r : StructRecord) {x : Screen} (h : x.chan.Fits) :
    (x.rewritten j r).chan.Fits := by
  obtain ⟨h1, h2, h3, h4, h5⟩ := h
  unfold Screen.rewritten
  dsimp only
  split
  · exact ⟨le_refl 0, lt_of_le_of_lt h1 h2, h3, h4, h5⟩
  · exact ⟨h1, h2, h3, h4, h5⟩

theorem State.ChannelsInRange.putRecord (j : ScreenId) (r : StructRecord) (hs : s.ChannelsInRange) :
    (s.putRecord j r).ChannelsInRange := by
  refine hs.of_fits ?_ (fun k h => ?_) (fun k => ?_) ?_ ?_ ?_
  · rw [State.putRecord_frame]
  · rw [State.screen_putRecord]
    dsimp only
    split
    · exact Screen.rewritten_fits j r h
    · exact h
  · rw [State.screen_putRecord]
    dsimp only
    split <;> rfl
  · rw [State.putRecord_frame]
  · rw [State.putRecord_frame]; exact ⟨rfl, rfl⟩
  · rw [State.putRecord_frame]; exact .refl _

theorem Change.channelsInRange (h : Change s t) (hs : s.ChannelsInRange) : t.ChannelsInRange := by
  cases h with
  | same h =>
    exact hs.congr h.p (fun k => by unfold State.screen; rw [h.screens]; exact ⟨rfl, rfl⟩) h.line h.phase
      (by rw [h.web]; exact .refl _)
  | reset => exact State.reset_channels
  | cycle => exact hs.driveCycle
  | turnaround reply =>
    have hqueue : LengthsFrom s.web.queue (s.turnaround reply).web.queue := by
      have := (EngOnly.faultSlots reply s).bare
      rw [State.closeFrame_eq] at this
      rw [State.turnaround_eq, State.evalLines_web, State.evalHold_web]
      exact .of_bare this
    refine hs.of_fits ?_ (fun k h => ?_) (fun k => ?_) ?_ ?_ hqueue
    · rw [State.turnaround_frame]
    · rw [(s.turnaround_keepsRecord reply k).2]; exact h
    · rw [(s.turnaround_keepsRecord reply k).1.2.2.2.2.2.1]
    · rw [State.turnaround_frame]
    · rw [State.turnaround_frame]; exact ⟨rfl, rfl⟩
  | doses => exact hs.of_web (.withQueue s _) (.of_bare s.addDoses_bare)
  | seam =>
    obtain ⟨u, hweb, hsame⟩ := WebOnly.seamPulse s
    refine hs.congr (by rw [hsame.p, hweb.pos]) (fun k => ?_) (by rw [hsame.line, hweb.1]) (by rw [hsame.phase, hweb.1])
      s.seamPulse_lengths
    have hk : s.seamPulse.screen k = s.screen k := by
      rw [← hweb.screen k]
      unfold State.screen
      rw [hsame.screens]
    rw [hk]
    exact ⟨rfl, rfl⟩
  | line h => exact hs.putLine h
  | record j => exact hs.putRecord j _
  | tuning j s h => exact hs.tuning j h
  | stretch v => exact hs.stretch v
  | align => exact hs.align _
  | engage => exact State.evalHold_channels (hs.of_plan (PlanOnly.engageAll s _))
  | lift => exact State.evalHold_channels (hs.of_plan (PlanOnly.liftAll s _))
  | clear =>
    refine State.evalHold_channels (hs.congr rfl (fun k => ?_) rfl rfl (.refl _))
    rw [State.screen_modEng]
    split
    · rename_i hk; rw [hk]; exact ⟨rfl, rfl⟩
    · exact ⟨rfl, rfl⟩
  | runBegin =>
    exact hs.of_fits rfl (fun _ h => h) (fun _ => rfl) rfl ⟨rfl, rfl⟩ (.refl _)
  | runDrain =>
    refine State.evalLines_channels (State.evalHold_channels ?_)
    have hdrain : (s.withWeb { s.web with lineState := .drain }).ChannelsInRange := hs.of_web (.withWeb s _) (.refl _)
    have hplan := hdrain.of_plan (.liftPlanned _)
    exact hplan.of_web (.drainIfEmpty _) (by rw [State.drainIfEmpty_queue]; exact .refl _)
  | runAbort =>
    refine hs.of_fits ?_ (fun k h => ?_) (fun k => ?_) ?_ ?_ ?_
    · rw [State.runAbort_eq]
    · rw [State.screen_runAbort]; exact h
    · rw [State.screen_runAbort]
    · rw [State.runAbort_eq]
    · rw [State.runAbort_eq]; exact ⟨rfl, rfl⟩
    · rw [State.runAbort_eq]; exact fun _ hg => nomatch hg
  | report v => exact hs.report _ _ v
  | _ => exact hs.congr rfl (fun _ => ⟨rfl, rfl⟩) rfl rfl (.refl _)

end
end Sys2Proof.Machine

/-! ### The statement -/

open Sys2Proof Sys2Proof.Machine

/-- Settles O57: every change keeps the channels in range; in a drive cycle an accumulator moves by less than the shortest
repeat, so one crossing suffices. -/
theorem channelsStayInRange : Obligations.ChannelsStayInRange := keptByStep_of_change Change.channelsInRange

end

section
/-! PROOFS. The segment queue stays contiguous, and seqs rise through the waiting reports and the queue. -/

namespace Sys2Proof.Machine

/-! ### Contiguous queues -/

/-- What the order of a queue rests on: the seq and the coordinates of a record. -/
def Segment.place (g : Segment) : Nat × Int × Int := (g.seq, g.start, g.length)

/-- The seqs and coordinates of a queue. -/
def places (q : List Segment) : List (Nat × Int × Int) := q.map Segment.place

theorem Contiguous.tail {g : Segment} {q : List Segment} (h : Contiguous (g :: q)) : Contiguous q := by
  cases q with
  | nil => trivial
  | cons a q => exact h.2

theorem Contiguous.congr {q q' : List Segment} (h : Contiguous q) (hplaces : places q' = places q) : Contiguous q' := by
  induction q' generalizing q with
  | nil => trivial
  | cons a q' ih =>
    match q, hplaces with
    | b :: q, hplaces =>
      obtain ⟨hhead, htail⟩ := List.cons.inj hplaces
      have hrest := ih h.tail htail
      match q', q, htail with
      | [], _, _ => trivial
      | c :: q', d :: q, htail =>
        obtain ⟨hnext, -⟩ := List.cons.inj htail
        simp only [Segment.place, Prod.mk.injEq] at hhead hnext
        obtain ⟨-, ha, hal⟩ := hhead
        obtain ⟨-, hc, -⟩ := hnext
        exact ⟨by rw [hc, ha, hal]; exact h.1, hrest⟩

theorem Contiguous.of_suffix {q q' : List Segment} (h : Contiguous q) (hsuffix : places q' <:+ places q) : Contiguous q' := by
  obtain ⟨l, hl⟩ := hsuffix
  induction l generalizing q with
  | nil => exact h.congr hl
  | cons x l ih =>
    cases q with
    | nil => cases hl
    | cons g q => exact ih h.tail (List.cons.inj hl).2

/-- A record joins where the queue ends (R96). -/
theorem Contiguous.append {q : List Segment} (h : Contiguous q) {g : Segment}
    (hstart : ∀ tail ∈ q.getLast?, g.start = tail.start + tail.length) : Contiguous (q ++ [g]) := by
  induction q with
  | nil => trivial
  | cons a q ih =>
    cases q with
    | nil => exact ⟨hstart a rfl, trivial⟩
    | cons b q => exact ⟨h.1, ih h.2 fun tail htail => hstart tail (by simpa using htail)⟩

theorem places_of_bare {q q' : List Segment} (h : bare q' = bare q) : places q' = places q := by
  have hbare : ∀ q, places (bare q) = places q := fun q => by unfold places bare; rw [List.map_map]; rfl
  rw [← hbare q', h, hbare]

theorem seqs_of_places {q q' : List Segment} (h : places q' = places q) : q'.map Segment.seq = q.map Segment.seq := by
  have hseq : ∀ q, (places q).map Prod.fst = q.map Segment.seq := fun q => by unfold places; rw [List.map_map]; rfl
  rw [← hseq q', h, hseq]

/-! ### Seqs through the reports and the queue -/

/-- The seqs of the waiting segment reports and of the queued records. -/
def State.seqs (s : State) : List Nat := reportSeqs s.reports ++ s.web.queue.map Segment.seq

theorem reportSeqs_append (l l' : List Report) : reportSeqs (l ++ l') = reportSeqs l ++ reportSeqs l' :=
  List.filterMap_append

theorem reportSeqs_sublist {l l' : List Report} (h : l.Sublist l') : (reportSeqs l).Sublist (reportSeqs l') := h.filterMap _

theorem offeredTo_sublist (reports offered : List Report) : (offeredTo reports offered).Sublist (reports ++ offered) :=
  List.take_sublist _ _

/-- Between two states records may leave at the head, reports may be made of them in their order, and seqs may drop
out; none is new. -/
structure Thins (s t : State) : Prop where
  seqs : t.seqs.Sublist s.seqs
  queue : places t.web.queue <:+ places s.web.queue
  nextSeq : t.web.nextSeq = s.web.nextSeq
  exhausted : t.web.exhausted = s.web.exhausted

theorem Thins.refl (s : State) : Thins s s := ⟨List.Sublist.refl _, List.suffix_refl _, rfl, rfl⟩

section
variable {s t u : State}

theorem Thins.trans (h1 : Thins s t) (h2 : Thins t u) : Thins s u :=
  ⟨h2.seqs.trans h1.seqs, h2.queue.trans h1.queue, h2.nextSeq.trans h1.nextSeq, h2.exhausted.trans h1.exhausted⟩

/-- Only what a record is besides its seq and coordinates may change. -/
theorem Thins.of_places (hreports : t.reports = s.reports) (hqueue : places t.web.queue = places s.web.queue)
    (hnext : t.web.nextSeq = s.web.nextSeq) (hexhausted : t.web.exhausted = s.web.exhausted) : Thins s t where
  seqs := by
    unfold State.seqs
    rw [hreports, seqs_of_places hqueue]
  queue := hqueue ▸ List.suffix_refl _
  nextSeq := hnext
  exhausted := hexhausted

theorem Thins.of_web (hreports : t.reports = s.reports) (hweb : t.web = s.web) : Thins s t :=
  .of_places hreports (by rw [hweb]) (by rw [hweb]) (by rw [hweb])

/-- Offers of roll reports thin out nothing but what finds no room. -/
theorem Thins.of_rolls {offered : List Report} (ho : Offers offered s t) (hrolls : reportSeqs offered = [])
    (hqueue : t.web.queue = s.web.queue) (hnext : t.web.nextSeq = s.web.nextSeq)
    (hexhausted : t.web.exhausted = s.web.exhausted) : Thins s t where
  seqs := by
    have hsub := reportSeqs_sublist (offeredTo_sublist s.reports offered)
    rw [reportSeqs_append, hrolls, List.append_nil, ← ho.reports] at hsub
    unfold State.seqs
    rw [hqueue]
    exact hsub.append_right _
  queue := by rw [hqueue]
  nextSeq := hnext
  exhausted := hexhausted

theorem reportSeqs_rolls (reason : CloseReason) (l : List Roll) :
    reportSeqs (l.map fun r => .roll (rollReport reason r)) = [] := by
  unfold reportSeqs
  rw [List.filterMap_map, List.filterMap_eq_nil_iff]
  exact fun _ _ => rfl

theorem Thins.closeRoll (reason : CloseReason) (r : Roll) (s : State) : Thins s (s.closeRoll reason r) :=
  .of_rolls (.closeRoll reason s r) rfl (by rw [State.closeRoll_web]) (by rw [State.closeRoll_web])
    (by rw [State.closeRoll_web])

theorem Thins.nextRollTest (id : Nat) (s : State) : Thins s (s.nextRollTest id) := by
  rcases s.nextRollTest_cases id with h | ⟨r, -, -, -, h⟩ <;> rw [h]
  · exact .refl s
  · exact .closeRoll _ r s

theorem Thins.latch (e : EventKind) (s : State) : Thins s (s.latch e) :=
  .of_web (State.latch_reports e s) (State.latch_web e s)

theorem Thins.drainIfEmpty (s : State) : Thins s s.drainIfEmpty := by
  unfold State.drainIfEmpty
  split
  · have hclose : Thins s (s.closeAllRolls .drain) :=
      .of_rolls (.closeAllRolls .drain s) (reportSeqs_rolls _ _) (by rw [State.closeAllRolls_web])
        (by rw [State.closeAllRolls_web]) (by rw [State.closeAllRolls_web])
    exact (hclose.trans (.latch .drainDone _)).trans (.of_places rfl rfl rfl rfl)
  · exact .refl s

/-- The head that leaves becomes the last waiting report, or is lost (R149, R155). -/
theorem Thins.leave (way : WayOut) {g : Segment} {rest : List Segment} (hq : s.web.queue = g :: rest) :
    Thins s ((s.withQueue rest).gradeRecord way g) where
  seqs := by
    have hqueue : ((s.withQueue rest).gradeRecord way g).web.queue = rest := by rw [State.gradeRecord_web]; rfl
    unfold State.seqs
    rw [hqueue, hq, State.gradeRecord_reports, State.withQueue_reports]
    split
    · rw [reportSeqs_append, List.append_assoc]
      exact List.Sublist.refl _
    · exact List.Sublist.append_left (List.sublist_cons_self _ _) _
  queue := by
    rw [State.gradeRecord_web, hq]
    exact List.suffix_cons _ _
  nextSeq := by rw [State.gradeRecord_web]; rfl
  exhausted := by rw [State.gradeRecord_web]; rfl

theorem Thins.evict (s : State) : Thins s s.evict := by
  rcases s.evict_cases with ⟨-, h⟩ | ⟨g, rest, hq, h⟩ <;> rw [h]
  · exact .refl s
  · exact ((Thins.leave .evicted hq).trans (.latch _ _)).trans (.nextRollTest _ _)

theorem Thins.exitHead {g : Segment} {rest : List Segment} (hq : s.web.queue = g :: rest) : Thins s (s.exitHead g rest) :=
  ((Thins.leave .exit hq).trans (.nextRollTest _ _)).trans (.drainIfEmpty _)

theorem Thins.exitLoop (x : Int) (n : Nat) (s : State) : Thins s (s.exitLoop x n) := by
  induction n generalizing s with
  | zero => exact .refl s
  | succ n ih =>
    unfold State.exitLoop
    split
    · exact .refl s
    · rename_i g rest hq
      split
      · exact (Thins.exitHead hq).trans (ih _)
      · exact .refl s

theorem Thins.webTests (s : State) : Thins s s.webTests := by
  unfold State.webTests
  split
  · exact .refl s
  · have hcamera : Thins s s.cameraTest := by
      refine .of_places ?_ (places_of_bare s.cameraTest_bare) ?_ ?_ <;> unfold State.cameraTest
      · rw [State.latchIf_reports]; rfl
      · rw [State.latchIf_web]; rfl
      · rw [State.latchIf_web]; rfl
    refine hcamera.trans ?_
    unfold State.exitTest
    split
    · exact .refl _
    · exact .exitLoop _ _ _

/-! ### A record joins -/

theorem State.QueueInOrder.thins (hs : s.QueueInOrder) (h : Thins s t) : t.QueueInOrder := by
  obtain ⟨hcont, hrise, hbelow, hnext⟩ := hs
  refine ⟨hcont.of_suffix h.queue, hrise.sublist h.seqs, fun q hq => ?_, ?_⟩
  · rw [h.nextSeq, h.exhausted]
    exact hbelow q (h.seqs.subset hq)
  · rw [h.nextSeq]
    exact hnext

theorem Thins.joined (s : State) :
    Thins ((s.withQueue (s.web.queue ++ [s.newSegment])).withRolls (gained s.newSegment s.web.rolls)) s.joined :=
  foldl_keeps (inv := Thins ((s.withQueue (s.web.queue ++ [s.newSegment])).withRolls (gained s.newSegment s.web.rolls)))
    (fun u (r : Roll) hu => hu.trans (.nextRollTest r.id u)) _ (.refl _)

theorem State.advanceSeq_reports (s : State) : s.advanceSeq.reports = s.reports := by
  unfold State.advanceSeq
  split
  · rw [State.latch_reports, State.withWeb_reports]
  · rfl

theorem State.advanceSeq_queue (s : State) : s.advanceSeq.web.queue = s.web.queue := by
  rw [State.advanceSeq_web]
  split <;> rfl

/-- The next seq rises by one, or stands at its last value with seqs exhausted (R98). -/
theorem State.appendSegment_seq (s : State) :
    (s.web.nextSeq = 4294967295 ∧ s.appendSegment.web.nextSeq = 4294967295 ∧ s.appendSegment.web.exhausted = true)
    ∨ (s.web.nextSeq ≠ 4294967295 ∧ s.appendSegment.web.nextSeq = s.web.nextSeq + 1
      ∧ s.appendSegment.web.exhausted = s.web.exhausted) := by
  have hnext : s.joined.web.nextSeq = s.web.nextSeq := (Thins.joined s).nextSeq
  have hexhausted : s.joined.web.exhausted = s.web.exhausted := (Thins.joined s).exhausted
  rw [State.appendSegment_eq, State.advanceSeq_web, hnext]
  by_cases h : s.web.nextSeq = 4294967295
  · rw [if_pos h]
    exact .inl ⟨h, hnext.trans h, rfl⟩
  · rw [if_neg h]
    exact .inr ⟨h, rfl, hexhausted⟩

/-- A creation's record takes the next seq, above every other, and starts where the queue ends (R94, R96, R98). -/
theorem State.QueueInOrder.appendSegment (hs : s.QueueInOrder) (hexhausted : s.web.exhausted = false) :
    s.appendSegment.QueueInOrder := by
  obtain ⟨hcont, hrise, hbelow, hlow, hhigh⟩ := hs
  have hbefore : ∀ q ∈ s.seqs, q < s.web.nextSeq := fun q hq => (hbelow q hq).2.2 hexhausted
  have hseqs : s.joined.seqs.Sublist (s.seqs ++ [s.web.nextSeq]) := by
    have h := (Thins.joined s).seqs
    unfold State.seqs at h ⊢
    rw [State.withRolls_reports, State.withQueue_reports] at h
    rwa [List.append_assoc, ← show (s.web.queue ++ [s.newSegment]).map Segment.seq = s.web.queue.map Segment.seq ++ [s.web.nextSeq]
      from List.map_append]
  have hsub : s.appendSegment.seqs.Sublist (s.seqs ++ [s.web.nextSeq]) := by
    rw [State.appendSegment_eq]
    unfold State.seqs at hseqs ⊢
    rw [State.advanceSeq_reports, State.advanceSeq_queue]
    exact hseqs
  have hrises : (s.seqs ++ [s.web.nextSeq]).Pairwise (· < ·) :=
    List.pairwise_append.mpr ⟨hrise, List.pairwise_singleton _ _, fun a ha b hb => by
      rw [List.mem_singleton.mp hb]; exact hbefore a ha⟩
  have hmem : ∀ q ∈ s.appendSegment.seqs, 1 ≤ q ∧ q ≤ s.web.nextSeq := by
    intro q hq
    rcases List.mem_append.mp (hsub.subset hq) with h | h
    · exact ⟨(hbelow q h).1, (hbefore q h).le⟩
    · rw [List.mem_singleton.mp h]; exact ⟨hlow, le_refl _⟩
  refine ⟨?_, hrises.sublist hsub, fun q hq => ?_, ?_⟩
  · rw [State.appendSegment_queue]
    exact hcont.append fun tail htail => by simp only [State.newSegment, State.newStart, Option.mem_def.mp htail]
  · obtain ⟨h1, h2⟩ := hmem q hq
    rcases s.appendSegment_seq with ⟨hlast, hnext, hex⟩ | ⟨-, hnext, -⟩ <;> rw [hnext]
    · exact ⟨h1, hlast ▸ h2, fun h => by rw [hex] at h; cases h⟩
    · exact ⟨h1, h2.trans (Nat.le_succ _), fun _ => Nat.lt_succ_of_le h2⟩
  · rcases s.appendSegment_seq with ⟨-, hnext, -⟩ | ⟨hlast, hnext, -⟩ <;> rw [hnext]
    · decide
    · omega

theorem State.QueueInOrder.create (hs : s.QueueInOrder) : s.create.QueueInOrder := by
  rcases s.create_cases with ⟨-, h⟩ | ⟨hexhausted, -, h⟩ | ⟨hexhausted, -, h⟩ <;> rw [h]
  · exact hs.thins (.latch _ s)
  · exact hs.appendSegment hexhausted
  · exact (hs.thins (.evict s)).appendSegment ((Thins.evict s).exhausted.trans hexhausted)

/-! ### Every change -/

theorem Thins.of_eng (h : EngOnly s t) : Thins s t :=
  .of_places (by rw [h.frame]) (places_of_bare h.bare) (by rw [h.frame]) (by rw [h.frame])

theorem Thins.of_advance (h : AdvanceOnly s t) : Thins s t :=
  .of_places (by rw [h.frame]) (places_of_bare h.bare) (by rw [h.frame]) (by rw [h.frame])

theorem State.advanceChannel_of_breaks {k : ScreenId} {dw : Int} (hground : s.breaksGround k dw) :
    s.advanceChannel k dw = s.keyCrossing ((s.screen k).chan.r + dw) := by
  obtain ⟨hp, hle, hg⟩ := hground
  unfold State.advanceChannel
  rw [if_neg (by simp [hp])]
  exact (if_pos hle).trans (if_pos hg)

theorem State.QueueInOrder.advanceChannel (k : ScreenId) (dw : Int) (hs : s.QueueInOrder) :
    (s.advanceChannel k dw).QueueInOrder := by
  by_cases hground : s.breaksGround k dw
  · rw [State.advanceChannel_of_breaks hground]
    unfold State.keyCrossing
    dsimp only
    refine State.QueueInOrder.create (hs.thins (Thins.trans ?_ (.of_eng (EngOnly.cross 0 true _))))
    exact .of_web (by rw [State.withPhase_reports, State.modChan_reports]) (by rw [State.withPhase_web, State.modChan_web])
  · exact hs.thins (.of_advance (.advanceChannel hground))

theorem State.QueueInOrder.driveCycle (hs : s.QueueInOrder) : s.driveCycle.QueueInOrder := by
  have hslewed : Thins s s.advancePosition.slewAll := by
    refine .of_web ?_ (by rw [State.slewAll_web, State.advancePosition_web])
    unfold State.slewAll State.advancePosition
    rw [State.mapScreens_reports, State.latchIf_reports, State.withPos_reports]
  have hadvanced : s.advanced.QueueInOrder :=
    foldl_keeps (inv := State.QueueInOrder) (f := s.advancePosition.channelStep s.pos.deltaP)
      (fun u k hu => hu.advanceChannel k _) _ (hs.thins hslewed)
  refine hadvanced.thins (Thins.trans (t := s.advanced.windowTests.formSetpoints) ?_ (Thins.trans (.webTests _) ?_))
  · refine .of_web ?_ (by rw [State.formSetpoints_web, State.windowTests_web])
    unfold State.formSetpoints State.windowTests
    rw [State.mapScreens_reports, State.mapScreens_reports]
  · refine .of_web ?_ (by rw [State.driveCycle_web])
    rw [State.driveCycle_eq, State.evalLines_reports, State.evalHold_reports]
    unfold State.sendFrame
    rw [State.withRing_reports]

/-- Records that all leave LOST, and rolls that all close, thin the seqs out from the head (R93). -/
theorem Thins.runAbort (s : State) : Thins s s.runAbort where
  seqs := by
    have hlost : reportSeqs s.abortReports = s.web.queue.map Segment.seq := by
      unfold State.abortReports
      rw [reportSeqs_append]
      have hrolls : reportSeqs (s.web.rolls.map fun r =>
          .roll (rollReport .abort (r.without (s.web.queue.filter fun g => g.roll == r.id)))) = [] := by
        unfold reportSeqs
        rw [List.filterMap_map, List.filterMap_eq_nil_iff]
        exact fun _ _ => rfl
      rw [hrolls, List.append_nil]
      unfold reportSeqs
      rw [List.filterMap_map]
      exact List.filterMap_eq_map ▸ rfl
    have hsub := reportSeqs_sublist (offeredTo_sublist s.reports s.abortReports)
    rw [reportSeqs_append, hlost, ← State.runAbort_reports] at hsub
    unfold State.seqs
    rw [State.runAbort_eq]
    simpa using hsub
  queue := by
    rw [State.runAbort_eq]
    exact List.nil_suffix
  nextSeq := by rw [State.runAbort_eq]
  exhausted := by rw [State.runAbort_eq]

theorem Thins.seamPulse (s : State) : Thins s s.seamPulse := by
  have hlines : ∀ u : State, Thins u u.evalLines := fun u => .of_web (State.evalLines_reports u) (State.evalLines_web u)
  rcases s.seamPulse_cases with ⟨-, h⟩ | ⟨-, -, -, -, h⟩ | ⟨-, -, -, -, h⟩ <;> rw [h]
  · exact .refl s
  · exact (Thins.latch _ s).trans (hlines _)
  · refine Thins.trans ?_ (hlines _)
    have hweb : ∀ w : WebMap, places w.queue = places s.web.queue → w.nextSeq = s.web.nextSeq →
        w.exhausted = s.web.exhausted → Thins s (s.withWeb w) := fun w h1 h2 h3 => .of_places rfl h1 h2 h3
    have hplaces : places (s.web.queue.map fun g => if s.pos.p + s.line.dSeam ≤ g.lastCoord then
        { g with roll := s.web.nextRollId, seam := g.seam || g.holds (s.pos.p + s.line.dSeam) } else g)
        = places s.web.queue := by
      unfold places
      rw [List.map_map]
      refine List.map_congr_left fun g _ => ?_
      dsimp only [Function.comp]
      split <;> rfl
    unfold State.recordSeam
    dsimp only
    split
    · refine Thins.trans ?_ (.nextRollTest _ _)
      exact hweb _ hplaces rfl rfl
    · exact hweb _ hplaces rfl rfl

theorem Thins.report (seq : Nat) (k : ScreenId) (v : Int) (s : State) : Thins s (s.report seq k v) := by
  have hplaces : places (s.web.queue.map fun g => if g.seq = seq then
      { g with regs := storeEntry (entryFor s.line.tolerance k v) g.regs } else g) = places s.web.queue := by
    unfold places
    rw [List.map_map]
    refine List.map_congr_left fun g _ => ?_
    dsimp only [Function.comp]
    split <;> rfl
  rw [State.report_eq]
  refine .of_places ?_ ?_ ?_ ?_
  · rw [State.evalLines_reports, State.latchIf_reports]
    rfl
  all_goals rw [State.evalLines_web, State.latchIf_web]; unfold State.storeReport; rw [State.modChan_web]
  · exact hplaces
  · rfl
  · rfl

theorem Thins.turnaround (reply : ScreenId → Option DriveReply) (s : State) : Thins s (s.turnaround reply) := by
  have hbare := (EngOnly.faultSlots reply s).bare
  rw [State.closeFrame_eq] at hbare
  refine .of_places (by rw [State.turnaround_frame]) (places_of_bare ?_) (by rw [State.turnaround_frame])
    (by rw [State.turnaround_frame])
  rw [State.turnaround_eq, State.evalLines_web, State.evalHold_web]
  exact hbare

theorem Thins.runDrain (s : State) : Thins s s.runDrain := by
  have hlift : Thins s (s.withWeb { s.web with lineState := .drain }).liftPlanned := by
    refine .of_places ?_ ?_ ?_ ?_ <;> rw [(PlanOnly.liftPlanned _).1] <;> rfl
  refine (hlift.trans (.drainIfEmpty _)).trans (.of_web ?_ ?_) <;> unfold State.runDrain
  · rw [State.evalLines_reports, State.evalHold_reports]
  · rw [State.evalLines_web, State.evalHold_web]

theorem State.reset_queueInOrder : State.reset.QueueInOrder := by
  refine ⟨trivial, List.Pairwise.nil, fun q hq => ?_, ?_, ?_⟩
  · cases hq
  · decide
  · decide

theorem Change.queueInOrder (h : Change s t) (hs : s.QueueInOrder) : t.QueueInOrder := by
  cases h with
  | same h => exact hs.thins (.of_web h.reports h.web)
  | reset => exact State.reset_queueInOrder
  | cycle => exact hs.driveCycle
  | turnaround reply => exact hs.thins (.turnaround reply s)
  | doses => exact hs.thins (.of_places rfl (places_of_bare s.addDoses_bare) rfl rfl)
  | seam => exact hs.thins (.seamPulse s)
  | record j =>
    refine hs.thins (.of_web ?_ ?_) <;> rw [State.putRecord_frame]
  | align =>
    refine hs.thins (.of_web ?_ ?_) <;> unfold State.alignGroup
    · rw [State.mapScreens_reports]
    · rw [State.mapScreens_web]
  | engage => refine hs.thins (.of_web ?_ ?_) <;> rw [State.engage_eq]
  | lift => refine hs.thins (.of_web ?_ ?_) <;> rw [State.lift_eq]
  | clear =>
    refine hs.thins (.of_web ?_ ?_) <;> unfold State.clear
    · rw [State.evalHold_reports, State.modEng_reports]
    · rw [State.evalHold_web, State.modEng_web]
  | runBegin => exact hs.thins (.of_places rfl rfl rfl rfl)
  | runDrain => exact hs.thins (.runDrain s)
  | runAbort => exact hs.thins (.runAbort s)
  | report v => exact hs.thins (.report _ _ v s)
  | reportTaken h =>
    refine hs.thins ⟨?_, List.suffix_refl _, rfl, rfl⟩
    unfold State.seqs
    rw [h]
    exact (reportSeqs_sublist (List.sublist_cons_self _ _)).append_right _
  | _ => exact hs.thins (.of_web rfl rfl)

end
end Sys2Proof.Machine

/-! ### The statement -/

open Sys2Proof Sys2Proof.Machine

/-- Settles O59: a creation appends the next seq where the queue ends; every other change only takes seqs out, from the
head of the queue into the reports. -/
theorem queueStaysInOrder : Obligations.QueueStaysInOrder := keptByStep_of_change Change.queueInOrder

end

section
/-! PROOFS. The lists stay within their bounds. -/

namespace Sys2Proof.Machine

/-! ### The fault list (R80) -/

/-- One entry a screen, with repeat counts 1 … 255. -/
def FaultsOk (l : List FaultEntry) : Prop := (l.map FaultEntry.screen).Nodup ∧ ∀ e ∈ l, 1 ≤ e.repeats ∧ e.repeats ≤ 255

theorem FaultsOk.enter {l : List FaultEntry} (h : FaultsOk l) {e : FaultEntry} (he : e.repeats = 1) :
    FaultsOk (enterFault e l) := by
  obtain ⟨hnodup, hrepeats⟩ := h
  constructor
  · rw [enterFault_screens]
    split
    · exact hnodup
    · rename_i hnew
      exact List.nodup_append.mpr ⟨hnodup, List.nodup_singleton _, fun a ha b hb hab =>
        hnew (by rw [List.mem_singleton.mp hb] at hab; exact hab ▸ ha)⟩
  · intro x hx
    unfold enterFault at hx
    split at hx
    · obtain ⟨y, hy, rfl⟩ := List.mem_map.mp hx
      have := hrepeats y hy
      split
      · dsimp only; omega
      · exact this
    · rcases List.mem_append.mp hx with hx | hx
      · exact hrepeats x hx
      · rw [List.mem_singleton.mp hx, he]
        decide

section
variable {s t : State}

theorem FaultsOk.advanceChannel (k : ScreenId) (dw : Int) (h : FaultsOk s.ring.faults) :
    FaultsOk (s.advanceChannel k dw).ring.faults := by
  rw [State.advanceChannel_faults]
  split
  · exact h.enter rfl
  · exact h

theorem State.driveCycle_faults (s : State) : s.driveCycle.ring.faults = s.advanced.ring.faults := by
  have h : s.advanced.windowTests.formSetpoints.webTests.ring = s.advanced.ring := by
    rw [(WebOnly.webTests _).ring]
    unfold State.formSetpoints State.windowTests
    rw [State.mapScreens_ring, State.mapScreens_ring]
  rw [State.driveCycle_eq, State.evalLines_ring, State.evalHold_ring]
  unfold State.sendFrame
  rw [State.withRing_ring, ← h]

/-- What the slews give and every channel's advance keeps, the channel advance gives. -/
theorem State.advanced_keeps {inv : State → Prop} (h : ∀ u k dw, inv u → inv (u.advanceChannel k dw))
    (hs : inv s.advancePosition.slewAll) : inv s.advanced := by
  have hstep : ∀ u k, inv u → inv (s.advancePosition.channelStep s.pos.deltaP u k) := fun u k hu => h u k _ hu
  unfold State.advanced
  rw [State.advanceChannels_eq]
  exact foldl_keeps hstep allScreens hs

theorem FaultsOk.driveCycle (h : FaultsOk s.ring.faults) : FaultsOk s.driveCycle.ring.faults := by
  rw [State.driveCycle_faults]
  refine State.advanced_keeps (inv := fun u => FaultsOk u.ring.faults) (fun u k dw hu => hu.advanceChannel k dw) ?_
  unfold State.slewAll State.advancePosition
  rw [State.mapScreens_ring, State.latchIf_ring, State.withPos_ring]
  exact h

theorem FaultsOk.turnaround (reply : ScreenId → Option DriveReply) (h : FaultsOk s.ring.faults) :
    FaultsOk (s.turnaround reply).ring.faults := by
  rw [State.turnaround_eq, State.evalLines_ring, State.evalHold_ring]
  refine foldl_keeps (inv := fun u => FaultsOk u.ring.faults) (f := s.faultSlot reply) (fun u k hu => ?_) _ h
  unfold State.faultSlot
  split
  · split
    · rw [State.screenFault_faults]
      split
      · exact hu
      · exact hu.enter rfl
    · exact hu
  · exact hu

theorem Change.faultsOk (h : Change s t) (hs : FaultsOk s.ring.faults) : FaultsOk t.ring.faults := by
  cases h with
  | same h => exact h.faults ▸ hs
  | reset => exact ⟨List.nodup_nil, fun _ h => nomatch h⟩
  | cycle => exact hs.driveCycle
  | turnaround reply => exact hs.turnaround reply
  | seam =>
    obtain ⟨u, hweb, hsame⟩ := WebOnly.seamPulse s
    rw [hsame.faults, hweb.ring]
    exact hs
  | record j => rw [State.putRecord_frame]; exact hs
  | align =>
    unfold State.alignGroup
    rw [State.mapScreens_ring]
    exact hs
  | engage => rw [State.engage_eq]; exact hs
  | lift => rw [State.lift_eq]; exact hs
  | faultTaken h =>
    obtain ⟨hnodup, hrepeats⟩ := hs
    rw [h] at hnodup hrepeats
    exact ⟨(List.nodup_cons.mp hnodup).2, fun e he => hrepeats e (List.mem_cons_of_mem _ he)⟩
  | clear => unfold State.clear; rw [State.evalHold_ring]; exact hs
  | runDrain =>
    unfold State.runDrain
    rw [State.evalLines_ring, State.evalHold_ring, (WebOnly.drainIfEmpty _).ring, (PlanOnly.liftPlanned _).1]
    exact hs
  | runAbort => rw [State.runAbort_eq]; exact hs
  | report v =>
    rw [State.report_eq, State.evalLines_ring, State.latchIf_ring]
    unfold State.storeReport
    rw [State.modChan_ring]
    exact hs
  | _ => exact hs

/-! ### Queues, rolls and register lists (R94, R102, R115, R155) -/

/-- A register list in screen order, without screen 0. -/
def RegsOk (l : List RegEntry) : Prop := (l.map RegEntry.screen).Pairwise (· < ·) ∧ ∀ e ∈ l, e.screen ≠ 0

/-- The bounds of the Web Map and of the exit report queue. -/
structure State.WebBounded (s : State) : Prop where
  queue : s.web.queue.length ≤ 256
  reports : s.reports.length ≤ 32
  rolls : s.web.rolls.length ≤ 8
  regs : ∀ g ∈ s.web.queue, RegsOk g.regs
  setup : s.web.lineState = .setup → s.web.queue = [] ∧ s.web.rolls = []

theorem State.listsBounded_iff (s : State) : s.ListsBounded ↔ FaultsOk s.ring.faults ∧ s.WebBounded := by
  constructor
  · rintro ⟨h1, h2, h3, h4, h5, h6, h7⟩
    exact ⟨⟨h4, h5⟩, h1, h2, h3, h6, h7⟩
  · rintro ⟨⟨h4, h5⟩, h1, h2, h3, h6, h7⟩
    exact ⟨h1, h2, h3, h4, h5, h6, h7⟩

/-- Between two states records and rolls may leave, reports be offered, and the line come to SETUP with both lists
empty; nothing grows but the reports, as far as they have room. -/
structure Shrinks (s t : State) : Prop where
  queue : bare t.web.queue <:+ bare s.web.queue
  reports : t.reports.length ≤ max 32 s.reports.length
  rolls : t.web.rolls.length ≤ s.web.rolls.length
  setup : t.web.lineState = .setup → s.web.lineState = .setup ∨ (t.web.queue = [] ∧ t.web.rolls = [])

theorem Shrinks.of_web (hreports : t.reports = s.reports) (hqueue : bare t.web.queue = bare s.web.queue)
    (hrolls : t.web.rolls = s.web.rolls) (hline : t.web.lineState = s.web.lineState) : Shrinks s t where
  queue := hqueue ▸ List.suffix_refl _
  reports := hreports ▸ le_max_right _ _
  rolls := by rw [hrolls]
  setup h := .inl (hline ▸ h)

theorem Shrinks.refl (s : State) : Shrinks s s := .of_web rfl rfl rfl rfl

theorem eq_nil_of_bare_suffix {q : List Segment} (h : bare q <:+ bare []) : q = [] :=
  List.map_eq_nil_iff.mp (List.suffix_nil.mp h)

theorem Shrinks.trans {u : State} (h1 : Shrinks s t) (h2 : Shrinks t u) : Shrinks s u where
  queue := h2.queue.trans h1.queue
  reports := by have := h1.reports; have := h2.reports; omega
  rolls := h2.rolls.trans h1.rolls
  setup h := by
    rcases h2.setup h with ht | ht
    · refine (h1.setup ht).imp id fun ⟨hq, hr⟩ => ⟨?_, ?_⟩
      · have hsuffix := h2.queue
        rw [hq] at hsuffix
        exact eq_nil_of_bare_suffix hsuffix
      · have hlen := h2.rolls
        rw [hr] at hlen
        exact List.length_eq_zero_iff.mp (Nat.le_zero.mp hlen)
    · exact .inr ht

theorem State.WebBounded.shrinks (hs : s.WebBounded) (h : Shrinks s t) : t.WebBounded where
  queue := by
    have hlen := h.queue.length_le
    unfold bare at hlen
    rw [List.length_map, List.length_map] at hlen
    exact hlen.trans hs.queue
  reports := by have := h.reports; have := hs.reports; omega
  rolls := h.rolls.trans hs.rolls
  regs g hg := by
    obtain ⟨g', hg', hbare⟩ := List.mem_map.mp (h.queue.subset (List.mem_map_of_mem hg))
    obtain ⟨-, -, -, -, hregs⟩ := Segment.bare_inj hbare
    exact hregs ▸ hs.regs g' hg'
  setup ht := by
    rcases h.setup ht with hset | hset
    · obtain ⟨hq, hr⟩ := hs.setup hset
      have hsuffix := h.queue
      have hlen := h.rolls
      rw [hq] at hsuffix
      rw [hr] at hlen
      exact ⟨eq_nil_of_bare_suffix hsuffix, List.length_eq_zero_iff.mp (Nat.le_zero.mp hlen)⟩
    · exact hset

theorem offeredTo_length (reports offered : List Report) :
    (offeredTo reports offered).length ≤ max 32 reports.length := by
  unfold offeredTo
  exact List.length_take_le _ _

theorem Shrinks.of_offers {offered : List Report} (ho : Offers offered s t) (hqueue : t.web.queue = s.web.queue)
    (hrolls : t.web.rolls.length ≤ s.web.rolls.length) (hline : t.web.lineState = s.web.lineState) : Shrinks s t where
  queue := by rw [hqueue]
  reports := ho.reports ▸ offeredTo_length _ _
  rolls := hrolls
  setup h := .inl (hline ▸ h)

theorem Shrinks.closeRoll (reason : CloseReason) (r : Roll) (s : State) : Shrinks s (s.closeRoll reason r) :=
  .of_offers (.closeRoll reason s r) (by rw [State.closeRoll_web])
    (by rw [State.closeRoll_web]; exact List.length_filter_le _ _) (by rw [State.closeRoll_web])

theorem Shrinks.nextRollTest (id : Nat) (s : State) : Shrinks s (s.nextRollTest id) := by
  rcases s.nextRollTest_cases id with h | ⟨r, -, -, -, h⟩ <;> rw [h]
  · exact .refl s
  · exact .closeRoll _ r s

theorem Shrinks.latch (e : EventKind) (s : State) : Shrinks s (s.latch e) := by
  refine .of_web (State.latch_reports e s) ?_ ?_ ?_ <;> rw [State.latch_web]

theorem Shrinks.drainIfEmpty (s : State) : Shrinks s s.drainIfEmpty where
  queue := by rw [State.drainIfEmpty_queue]
  reports := by
    unfold State.drainIfEmpty
    split
    · have hreports : s.completeDrain.reports = (s.closeAllRolls .drain).reports := State.latch_reports .drainDone _
      rw [hreports, (Offers.closeAllRolls .drain s).reports]
      exact offeredTo_length _ _
    · exact le_max_right _ _
  rolls := by
    rw [State.drainIfEmpty_web]
    split
    · exact Nat.zero_le _
    · exact le_refl _
  setup := by
    rw [State.drainIfEmpty_web]
    split
    · rename_i h; exact fun _ => .inr ⟨h.2, rfl⟩
    · exact .inl

/-- A record leaves at the head. -/
theorem Shrinks.leave (way : WayOut) {g : Segment} {rest : List Segment} (hq : s.web.queue = g :: rest) :
    Shrinks s ((s.withQueue rest).gradeRecord way g) where
  queue := by
    rw [State.gradeRecord_web, hq]
    exact List.suffix_cons _ _
  reports := by
    rw [State.gradeRecord_reports, State.withQueue_reports]
    split
    · rw [List.length_append, List.length_singleton]; omega
    · exact le_max_right _ _
  rolls := by
    rw [State.gradeRecord_web]
    exact (List.length_map _).le
  setup h := by
    rw [State.gradeRecord_web] at h
    exact .inl h

theorem Shrinks.evict (s : State) : Shrinks s s.evict := by
  rcases s.evict_cases with ⟨-, h⟩ | ⟨g, rest, hq, h⟩ <;> rw [h]
  · exact .refl s
  · exact ((Shrinks.leave .evicted hq).trans (.latch _ _)).trans (.nextRollTest _ _)

theorem Shrinks.exitLoop (x : Int) (n : Nat) (s : State) : Shrinks s (s.exitLoop x n) := by
  induction n generalizing s with
  | zero => exact .refl s
  | succ n ih =>
    unfold State.exitLoop
    split
    · exact .refl s
    · rename_i g rest hq
      split
      · exact (((Shrinks.leave .exit hq).trans (.nextRollTest _ _)).trans (.drainIfEmpty _)).trans (ih _)
      · exact .refl s

theorem State.cameraTest_reports (s : State) : s.cameraTest.reports = s.reports := by
  unfold State.cameraTest
  rw [State.latchIf_reports, State.withQueue_reports]

theorem Shrinks.webTests (s : State) : Shrinks s s.webTests := by
  unfold State.webTests
  split
  · exact .refl s
  · refine Shrinks.trans (.of_web s.cameraTest_reports s.cameraTest_bare ?_ ?_) ?_
    · unfold State.cameraTest; rw [State.latchIf_web]; rfl
    · unfold State.cameraTest; rw [State.latchIf_web]; rfl
    · unfold State.exitTest
      split
      · exact .refl _
      · exact .exitLoop _ _ _

/-- A record joins a queue that has room, outside SETUP. -/
theorem State.WebBounded.appendSegment (hs : s.WebBounded) (hroom : s.web.queue.length < 256)
    (hrun : s.web.lineState ≠ .setup) : s.appendSegment.WebBounded := by
  have hbase : ((s.withQueue (s.web.queue ++ [s.newSegment])).withRolls (gained s.newSegment s.web.rolls)).WebBounded := by
    refine ⟨?_, hs.reports, ?_, fun g hg => ?_, fun h => absurd h hrun⟩
    · rw [State.withRolls_web, State.withQueue_web]
      simpa using hroom
    · exact (List.length_map _).le.trans hs.rolls
    · rcases List.mem_append.mp hg with hg | hg
      · exact hs.regs g hg
      · rw [List.mem_singleton.mp hg]
        exact ⟨List.Pairwise.nil, fun _ h => nomatch h⟩
  have hjoined : s.joined.WebBounded :=
    foldl_keeps (inv := State.WebBounded) (f := fun u (r : Roll) => u.nextRollTest r.id)
      (fun u r hu => hu.shrinks (.nextRollTest r.id u)) _ hbase
  rw [State.appendSegment_eq]
  refine hjoined.shrinks (.of_web (State.advanceSeq_reports _) (by rw [State.advanceSeq_queue]) ?_
    (State.advanceSeq_sameRun _).lineState)
  rw [State.advanceSeq_web]
  split <;> rfl

theorem State.WebBounded.create (hs : s.WebBounded) (hrun : s.web.lineState ≠ .setup) : s.create.WebBounded := by
  rcases s.create_cases with ⟨-, h⟩ | ⟨-, hroom, h⟩ | ⟨-, hfull, h⟩ <;> rw [h]
  · exact hs.shrinks (.latch _ s)
  · exact hs.appendSegment hroom hrun
  · refine (hs.shrinks (.evict s)).appendSegment ?_ ?_
    · have := hs.queue
      rw [State.evict_queue, List.length_tail]
      omega
    · rw [s.evict_passes.sameRun.lineState]
      exact hrun

theorem State.breaksGround_run {k : ScreenId} {dw : Int} (h : s.breaksGround k dw) : s.web.lineState = .run := by
  obtain ⟨-, -, hnew⟩ := h
  simp only [State.newGround, Bool.and_eq_true, beq_iff_eq] at hnew
  exact hnew.1.2

theorem State.WebBounded.advanceChannel (k : ScreenId) (dw : Int) (hs : s.WebBounded) :
    (s.advanceChannel k dw).WebBounded := by
  by_cases hground : s.breaksGround k dw
  · have hrun := State.breaksGround_run hground
    rw [State.advanceChannel_of_breaks hground]
    unfold State.keyCrossing
    dsimp only
    have hcross := EngOnly.cross 0 true ((s.modChan 0 (Channel.forward ((s.screen k).chan.r + dw) s.phase.lFab)).withPhase
      { (s.modChan 0 (Channel.forward ((s.screen k).chan.r + dw) s.phase.lFab)).phase with
        highWater := ((s.modChan 0 (Channel.forward ((s.screen k).chan.r + dw) s.phase.lFab)).screen 0).chan.n })
    have hbare := hcross.bare
    rw [State.withPhase_web, State.modChan_web] at hbare
    refine State.WebBounded.create (hs.shrinks (.of_web ?_ hbare ?_ ?_)) ?_
    · rw [hcross.frame, State.withPhase_reports, State.modChan_reports]
    · rw [hcross.frame, State.withPhase_web, State.modChan_web]
    · rw [hcross.frame, State.withPhase_web, State.modChan_web]
    · rw [hcross.frame, State.withPhase_web, State.modChan_web, hrun]
      exact LineState.noConfusion
  · have hadvance := AdvanceOnly.advanceChannel hground
    refine hs.shrinks (.of_web ?_ hadvance.bare ?_ ?_) <;> rw [hadvance.frame]

theorem State.WebBounded.driveCycle (hs : s.WebBounded) : s.driveCycle.WebBounded := by
  have hslewed : s.advancePosition.slewAll.WebBounded := by
    refine hs.shrinks (.of_web ?_ ?_ ?_ ?_)
    · unfold State.slewAll State.advancePosition
      rw [State.mapScreens_reports, State.latchIf_reports, State.withPos_reports]
    all_goals rw [State.slewAll_web, State.advancePosition_web]
  have hadvanced : s.advanced.WebBounded :=
    foldl_keeps (inv := State.WebBounded) (f := s.advancePosition.channelStep s.pos.deltaP)
      (fun u k hu => hu.advanceChannel k _) _ hslewed
  have htests : s.advanced.windowTests.formSetpoints.WebBounded := by
    refine hadvanced.shrinks (.of_web ?_ ?_ ?_ ?_)
    · unfold State.formSetpoints State.windowTests
      rw [State.mapScreens_reports, State.mapScreens_reports]
    all_goals rw [State.formSetpoints_web, State.windowTests_web]
  refine (htests.shrinks (.webTests _)).shrinks (.of_web ?_ ?_ ?_ ?_)
  · rw [State.driveCycle_eq, State.evalLines_reports, State.evalHold_reports]
    unfold State.sendFrame
    rw [State.withRing_reports]
  all_goals rw [State.driveCycle_web]

/-! ### Every change -/

theorem mem_storeEntry {e x : RegEntry} {l : List RegEntry} (h : x ∈ storeEntry e l) : x = e ∨ x ∈ l := by
  induction l with
  | nil => exact .inl (List.mem_singleton.mp h)
  | cons y l ih =>
    unfold storeEntry at h
    split_ifs at h
    · exact (List.mem_cons.mp h).imp id (List.mem_cons_of_mem _)
    · exact List.mem_cons.mp h
    · rcases List.mem_cons.mp h with h | h
      · exact .inr (h ▸ List.mem_cons_self)
      · exact (ih h).imp id (List.mem_cons_of_mem _)

theorem RegsOk.store {l : List RegEntry} (h : RegsOk l) {e : RegEntry} (he : e.screen ≠ 0) : RegsOk (storeEntry e l) := by
  obtain ⟨hrise, hne⟩ := h
  refine ⟨?_, fun x hx => ?_⟩
  · rw [storeEntry_eq e hrise, List.map_append, List.map_cons]
    have hsub : ∀ p : RegEntry → Bool, ((l.filter p).map RegEntry.screen).Pairwise (· < ·) :=
      fun p => hrise.sublist (List.filter_sublist.map _)
    have hmem : ∀ (p : RegEntry → Bool), ∀ a ∈ (l.filter p).map RegEntry.screen, ∃ r, p r = true ∧ r.screen = a := by
      intro p a ha
      obtain ⟨r, hr, rfl⟩ := List.mem_map.mp ha
      exact ⟨r, (List.mem_filter.mp hr).2, rfl⟩
    refine List.pairwise_append.mpr ⟨hsub _, List.pairwise_cons.mpr ⟨fun a ha => ?_, hsub _⟩, fun a ha b hb => ?_⟩
    · obtain ⟨r, hr, rfl⟩ := hmem _ a ha
      exact of_decide_eq_true hr
    · obtain ⟨r, hr, rfl⟩ := hmem _ a ha
      have hbelow : r.screen < e.screen := of_decide_eq_true hr
      rcases List.mem_cons.mp hb with rfl | hb
      · exact hbelow
      · obtain ⟨r', hr', rfl⟩ := hmem _ b hb
        exact hbelow.trans (of_decide_eq_true hr')
  · rcases mem_storeEntry hx with rfl | hx
    · exact he
    · exact hne x hx

theorem regReportAccept_ne_key {r : RegReport} {g : Segment} (h : regReportAccept r s = .ok g) : r.screen ≠ 0 := by
  intro hr
  unfold regReportAccept at h
  split at h
  · cases h
  · split_ifs at h

theorem State.WebBounded.report {r : RegReport} {g : Segment} (v : Int) (h : regReportAccept r s = .ok g)
    (hs : s.WebBounded) : (s.report r.seq r.screen v).WebBounded := by
  have hweb : (s.report r.seq r.screen v).web = { s.web with queue := s.web.queue.map fun g => if g.seq = r.seq then
      { g with regs := storeEntry (entryFor s.line.tolerance r.screen v) g.regs } else g } := by
    rw [State.report_eq, State.evalLines_web, State.latchIf_web]
    unfold State.storeReport
    rw [State.modChan_web]
    rfl
  have hreports : (s.report r.seq r.screen v).reports = s.reports := by
    rw [State.report_eq, State.evalLines_reports, State.latchIf_reports]
    unfold State.storeReport
    rw [State.modChan_reports]
    rfl
  refine ⟨?_, hreports ▸ hs.reports, ?_, fun g hg => ?_, fun hset => ?_⟩ <;> rw [hweb] at *
  · exact (List.length_map _).le.trans hs.queue
  · exact hs.rolls
  · obtain ⟨g', hg', rfl⟩ := List.mem_map.mp hg
    split
    · exact (hs.regs g' hg').store (regReportAccept_ne_key h)
    · exact hs.regs g' hg'
  · obtain ⟨hq, hr⟩ := hs.setup hset
    exact ⟨by dsimp only; rw [hq]; rfl, hr⟩

/-- The records that a seam moves (R105, step 1). -/
def movedBy (c : Int) (q : List Segment) : List Segment := q.filter fun g => c ≤ g.lastCoord

/-- A record after a seam opens roll `id` at c (R105, steps 1 and 2). -/
def Segment.seamed (id : Nat) (c : Int) (g : Segment) : Segment :=
  if c ≤ g.lastCoord then { g with roll := id, seam := g.seam || g.holds c } else g

/-- The rolls before the one that a seam opens, the records moved being taken from the last (R105, step 3). -/
def seamedRolls (moved : List Segment) (rolls : List Roll) : List Roll :=
  match moved, rolls.getLast? with
  | m :: _, some f => rolls.map fun r => if r.id = f.id then r.lose moved.length m.seq else r
  | _, _ => rolls

/-- A seam recorded, but for the NEXT_ROLL test of the former last roll. -/
def State.seamed (c : Int) (s : State) : State :=
  s.withWeb { s.web with
    queue := s.web.queue.map (Segment.seamed s.web.nextRollId c)
    rolls := seamedRolls (movedBy c s.web.queue) s.web.rolls ++ [seamRoll s.web.nextRollId c (movedBy c s.web.queue)]
    nextRollId := nextId s.web.nextRollId, lastSeam := some c }

/-- The NEXT_ROLL test is made where records move from a roll (R105, step 4). -/
theorem State.recordSeam_cases (c : Int) (s : State) :
    ((movedBy c s.web.queue = [] ∨ s.web.rolls = []) ∧ s.recordSeam c = s.seamed c)
    ∨ ∃ f, movedBy c s.web.queue ≠ [] ∧ s.web.rolls.getLast? = some f
      ∧ s.recordSeam c = (s.seamed c).nextRollTest f.id := by
  unfold State.recordSeam State.seamed seamedRolls movedBy
  cases hm : s.web.queue.filter fun g => decide (c ≤ g.lastCoord) with
  | nil => exact .inl ⟨.inl rfl, rfl⟩
  | cons m rest =>
    cases hf : s.web.rolls.getLast? with
    | none => exact .inl ⟨.inr (List.getLast?_eq_none_iff.mp hf), rfl⟩
    | some f => exact .inr ⟨f, List.cons_ne_nil _ _, rfl, rfl⟩

theorem length_seamedRolls (moved : List Segment) (rolls : List Roll) :
    (seamedRolls moved rolls).length = rolls.length := by
  unfold seamedRolls
  split
  · exact List.length_map _
  · rfl

theorem Segment.seamed_regs (id : Nat) (c : Int) (g : Segment) : (g.seamed id c).regs = g.regs := by
  unfold Segment.seamed
  split <;> rfl

theorem State.WebBounded.seamPulse (hs : s.WebBounded) : s.seamPulse.WebBounded := by
  have hlines : ∀ u : State, u.WebBounded → u.evalLines.WebBounded := fun u hu =>
    hu.shrinks (.of_web (State.evalLines_reports u) (by rw [State.evalLines_web]) (by rw [State.evalLines_web])
      (by rw [State.evalLines_web]))
  rcases s.seamPulse_cases with ⟨-, h⟩ | ⟨-, -, -, -, h⟩ | ⟨-, hrun, -, hroom, h⟩ <;> rw [h]
  · exact hs
  · exact hlines _ (hs.shrinks (.latch _ s))
  · refine hlines _ ?_
    have hseamed : (s.seamed (s.pos.p + s.line.dSeam)).WebBounded := by
      refine ⟨(List.length_map _).le.trans hs.queue, hs.reports, ?_, fun g hg => ?_, fun hset => ?_⟩
      · rw [State.seamed, State.withWeb_web, List.length_append, List.length_singleton, length_seamedRolls]
        omega
      · obtain ⟨g', hg', rfl⟩ := List.mem_map.mp hg
        rw [Segment.seamed_regs]
        exact hs.regs g' hg'
      · rw [State.seamed, State.withWeb_web, hrun] at hset
        cases hset
    rcases s.recordSeam_cases (s.pos.p + s.line.dSeam) with ⟨-, h⟩ | ⟨f, -, -, h⟩ <;> rw [h]
    · exact hseamed
    · exact hseamed.shrinks (.nextRollTest _ _)

theorem State.WebBounded.runBegin (hreason : s.runBeginReason = none) (hs : s.WebBounded) : s.runBegin.WebBounded := by
  obtain ⟨hq, hr⟩ := hs.setup (runBeginReason_setup hreason)
  refine ⟨hs.queue, hs.reports, ?_, hs.regs, fun hset => nomatch hset⟩
  unfold State.runBegin
  rw [State.withWeb_web, hr]
  exact Nat.le_of_ble_eq_true rfl

theorem Shrinks.runDrain (s : State) : Shrinks s s.runDrain := by
  have hlift : Shrinks s (s.withWeb { s.web with lineState := .drain }).liftPlanned := by
    refine ⟨?_, ?_, ?_, fun h => ?_⟩ <;> rw [(PlanOnly.liftPlanned _).1] at *
    · exact List.suffix_refl _
    · exact le_max_right _ _
    · exact le_refl _
    · cases h
  refine (hlift.trans (.drainIfEmpty _)).trans (.of_web ?_ ?_ ?_ ?_) <;> unfold State.runDrain
  · rw [State.evalLines_reports, State.evalHold_reports]
  all_goals rw [State.evalLines_web, State.evalHold_web]

theorem Shrinks.turnaround (reply : ScreenId → Option DriveReply) (s : State) : Shrinks s (s.turnaround reply) := by
  have hbare := (EngOnly.faultSlots reply s).bare
  rw [State.closeFrame_eq] at hbare
  refine .of_web (by rw [State.turnaround_frame]) ?_ (by rw [State.turnaround_frame]) (by rw [State.turnaround_frame])
  rw [State.turnaround_eq, State.evalLines_web, State.evalHold_web]
  exact hbare

theorem Change.webBounded (h : Change s t) (hs : s.WebBounded) : t.WebBounded := by
  have hsame : t.reports = s.reports → t.web = s.web → t.WebBounded := fun hreports hweb =>
    hs.shrinks (.of_web hreports (by rw [hweb]) (by rw [hweb]) (by rw [hweb]))
  cases h with
  | same h => exact hsame h.reports h.web
  | reset => exact ⟨Nat.zero_le _, Nat.zero_le _, Nat.zero_le _, fun _ h => (nomatch h), fun _ => ⟨rfl, rfl⟩⟩
  | cycle => exact hs.driveCycle
  | turnaround reply => exact hs.shrinks (.turnaround reply s)
  | doses => exact hs.shrinks (.of_web rfl s.addDoses_bare rfl rfl)
  | seam => exact hs.seamPulse
  | record j => exact hsame (by rw [State.putRecord_frame]) (by rw [State.putRecord_frame])
  | align =>
    refine hsame ?_ ?_ <;> unfold State.alignGroup
    · rw [State.mapScreens_reports]
    · rw [State.mapScreens_web]
  | engage => exact hsame (by rw [State.engage_eq]) (by rw [State.engage_eq])
  | lift => exact hsame (by rw [State.lift_eq]) (by rw [State.lift_eq])
  | clear =>
    refine hsame ?_ ?_ <;> unfold State.clear
    · rw [State.evalHold_reports, State.modEng_reports]
    · rw [State.evalHold_web, State.modEng_web]
  | runBegin h => exact hs.runBegin h
  | runDrain => exact hs.shrinks (.runDrain s)
  | runAbort =>
    refine ⟨?_, ?_, ?_, ?_, fun _ => ?_⟩
    · rw [State.runAbort_eq]; exact Nat.zero_le _
    · rw [State.runAbort_reports]
      exact (offeredTo_length _ _).trans (max_le (le_refl _) hs.reports)
    · rw [State.runAbort_eq]; exact Nat.zero_le _
    · rw [State.runAbort_eq]; exact fun _ hg => nomatch hg
    · rw [State.runAbort_eq]; exact ⟨rfl, rfl⟩
  | report v h => exact hs.report v h
  | reportTaken h =>
    refine ⟨hs.queue, ?_, hs.rolls, hs.regs, hs.setup⟩
    have := hs.reports
    rw [h, List.length_cons] at this
    rw [State.withReports_reports]
    omega
  | _ => exact hsame rfl rfl

theorem Change.listsBounded (h : Change s t) (hs : s.ListsBounded) : t.ListsBounded := by
  rw [State.listsBounded_iff] at hs ⊢
  exact ⟨h.faultsOk hs.1, h.webBounded hs.2⟩

end
end Sys2Proof.Machine
end

section
/-! PROOFS. The roll table follows the queue: rolls as intervals of fabric coordinates, and the three ways in which the
table and the queue move against each other. -/

namespace Sys2Proof.Machine

/-! ### Where a coordinate falls among the rolls (R102, R103) -/

/-- The index of the roll that a coordinate falls to: of the rolls after the first, as many as may hold it. -/
def rollIndex (rolls : List Roll) (x : Int) : Nat := (rolls.tail.takeWhile (Roll.opensBy x)).length

section
variable {least x y : Int} {rolls before after rs : List Roll} {r r0 : Roll}

theorem SeamsSpaced.tail (h : SeamsSpaced least (r0 :: rs)) : SeamsSpaced least rs := by
  cases rs with
  | nil => trivial
  | cons a rs => exact h.2

/-- The seam of a roll lies at or beyond those of the rolls between it and the first. -/
theorem SeamsSpaced.opens_of_later (hleast : 0 ≤ least) (h : SeamsSpaced least (r0 :: (before ++ r :: after)))
    (hr : r.mayHold x) : ∀ y ∈ before, y.mayHold x := by
  induction before generalizing r0 with
  | nil => exact fun _ h => nomatch h
  | cons a before ih =>
    have hrest := ih h.tail
    intro y hy
    rcases List.mem_cons.mp hy with rfl | hy
    · intro c hc
      cases before with
      | nil =>
        obtain ⟨-, ⟨d, hd, hfar⟩, -⟩ := h
        have := hr d hd
        have := hfar c hc
        omega
      | cons b before =>
        obtain ⟨-, ⟨d, hd, hfar⟩, -⟩ := h
        have := hrest b List.mem_cons_self d hd
        have := hfar c hc
        omega
    · exact hrest y hy

theorem takeWhile_of_all {p : Roll → Bool} (hbefore : ∀ y ∈ before, p y = true) (hafter : ∀ y ∈ after, p y = false) :
    (before ++ after).takeWhile p = before := by
  rw [List.takeWhile_append_of_pos hbefore]
  cases after with
  | nil => simp
  | cons a after => rw [List.takeWhile_cons_of_neg (by simp [hafter a]), List.append_nil]

/-- The roll that may hold a coordinate, none after it doing so, stands at the coordinate's index. -/
theorem rollIndex_of_split (hleast : 0 ≤ least) (h : SeamsSpaced least rolls) (hsplit : rolls = before ++ r :: after)
    (hr : before = [] ∨ r.mayHold x) (hafter : ∀ y ∈ after, ¬ y.mayHold x) : rollIndex rolls x = before.length := by
  subst hsplit
  have hlate : ∀ y ∈ after, Roll.opensBy x y = false := fun y hy => by
    rw [← Bool.not_eq_true, Roll.opensBy_iff]
    exact hafter y hy
  unfold rollIndex
  cases before with
  | nil =>
    rw [List.nil_append, List.tail_cons, ← List.nil_append after, takeWhile_of_all (by simp) hlate]
  | cons b before =>
    have hr' : r.mayHold x := hr.resolve_left (List.cons_ne_nil _ _)
    have hbefore := SeamsSpaced.opens_of_later hleast h hr'
    have hall : ∀ y ∈ before ++ [r], Roll.opensBy x y = true := by
      intro y hy
      rw [Roll.opensBy_iff]
      rcases List.mem_append.mp hy with hy | hy
      · exact hbefore y hy
      · rw [List.mem_singleton.mp hy]
        exact hr'
    rw [List.cons_append, List.tail_cons, List.append_cons before r after, takeWhile_of_all hall hlate]
    simp

theorem rollIndex_mono (h : x ≤ y) (rolls : List Roll) : rollIndex rolls x ≤ rollIndex rolls y := by
  have himp : ∀ r : Roll, r.opensBy x = true → r.opensBy y = true := fun r hr => by
    rw [Roll.opensBy_iff] at hr ⊢
    exact fun c hc => (hr c hc).trans h
  unfold rollIndex
  induction rolls.tail with
  | nil => exact le_refl _
  | cons a l ih =>
    by_cases ha : a.opensBy x = true
    · rw [List.takeWhile_cons_of_pos ha, List.takeWhile_cons_of_pos (himp a ha), List.length_cons, List.length_cons]
      omega
    · rw [List.takeWhile_cons_of_neg ha]
      exact Nat.zero_le _

/-- Seams this far apart, a step of no more falls to the next roll at most. -/
theorem rollIndex_step (h : SeamsSpaced least rolls) (hstep : y ≤ x + least) :
    rollIndex rolls y ≤ rollIndex rolls x + 1 := by
  unfold rollIndex
  cases rolls with
  | nil => exact Nat.zero_le _
  | cons r0 rs =>
    rw [List.tail_cons]
    induction rs generalizing r0 with
    | nil => exact Nat.zero_le _
    | cons a rs ih =>
      obtain ⟨⟨c, hc, -⟩, hrest⟩ := h
      by_cases hx : a.opensBy x = true
      · rw [List.takeWhile_cons_of_pos hx, List.length_cons]
        by_cases hy : a.opensBy y = true
        · rw [List.takeWhile_cons_of_pos hy, List.length_cons]
          exact Nat.succ_le_succ (ih a hrest)
        · rw [List.takeWhile_cons_of_neg hy]
          exact Nat.zero_le _
      · rw [List.takeWhile_cons_of_neg hx]
        by_cases hy : a.opensBy y = true
        · rw [List.takeWhile_cons_of_pos hy, List.length_cons]
          cases rs with
          | nil => exact le_refl _
          | cons b rs =>
            obtain ⟨⟨d, hd, hfar⟩, -⟩ := hrest
            have hbeyond : b.opensBy y = false := by
              rw [← Bool.not_eq_true, Roll.opensBy_iff]
              intro hb
              have := hb d hd
              have := hfar c hc
              rw [Roll.opensBy_iff] at hx
              exact hx fun c' hc' => by
                rw [hc] at hc'
                cases hc'
                omega
            rw [List.takeWhile_cons_of_neg (by simp [hbeyond])]
        · rw [List.takeWhile_cons_of_neg hy]
          exact Nat.zero_le _

end

/-! ### Records on the table -/

/-- A record names the last roll of the table that may hold it, or the first where none may (R103, log 31). -/
def OnRoll (rolls : List Roll) (g : Segment) : Prop :=
  ∃ before r after, rolls = before ++ r :: after ∧ g.roll = r.id
    ∧ (before = [] ∨ r.mayHold (g.start + g.length - 1)) ∧ ∀ x ∈ after, ¬ x.mayHold (g.start + g.length - 1)

/-- The roll table by itself: ids that follow one another, no two alike, up to the next, and seams this far apart. -/
structure RollTable (least : Int) (next : Nat) (rolls : List Roll) : Prop where
  follow : IdsFollow (rolls.map Roll.id ++ [next])
  nodup : (rolls.map Roll.id).Nodup
  range : ∀ id ∈ next :: rolls.map Roll.id, 1 ≤ id ∧ id ≤ 65535
  spaced : SeamsSpaced least rolls

section
variable {least : Int} {next : Nat} {rolls : List Roll} {q : List Segment} {g h : Segment}

theorem OnRoll.index (hleast : 0 ≤ least) (hspaced : SeamsSpaced least rolls) (hg : OnRoll rolls g) :
    ∃ r, rolls[rollIndex rolls g.lastCoord]? = some r ∧ g.roll = r.id := by
  obtain ⟨before, r, after, hsplit, hid, hr, hafter⟩ := hg
  refine ⟨r, ?_, hid⟩
  have hindex : rollIndex rolls g.lastCoord = before.length := rollIndex_of_split hleast hspaced hsplit hr hafter
  rw [hindex, hsplit]
  simp

/-- No two rolls sharing an id, a record's roll tells its index. -/
theorem OnRoll.index_eq (hleast : 0 ≤ least) (htable : RollTable least next rolls) (hg : OnRoll rolls g) {i : Nat} {r : Roll}
    (hi : rolls[i]? = some r) (hid : g.roll = r.id) : rollIndex rolls g.lastCoord = i := by
  obtain ⟨r', hr', hid'⟩ := hg.index hleast htable.spaced
  obtain ⟨h1, hget1⟩ := List.getElem?_eq_some_iff.mp hr'
  obtain ⟨h2, hget2⟩ := List.getElem?_eq_some_iff.mp hi
  have hlen : (rolls.map Roll.id).length = rolls.length := List.length_map _
  refine (List.Nodup.getElem_inj_iff htable.nodup (hi := by omega) (hj := by omega)).mp ?_
  rw [List.getElem_map, List.getElem_map, hget1, hget2, ← hid', ← hid]

/-- In a contiguous queue of records with length, the head ends first. -/
theorem Contiguous.head_last_le (hcont : Contiguous (h :: q)) (hlen : ∀ g ∈ h :: q, 0 ≤ g.length) :
    ∀ g ∈ h :: q, h.lastCoord ≤ g.lastCoord := by
  induction q generalizing h with
  | nil =>
    intro g hg
    rw [List.mem_singleton.mp hg]
  | cons a q ih =>
    intro g hg
    rcases List.mem_cons.mp hg with rfl | hg
    · exact le_refl _
    · have hrest := ih hcont.tail (fun g hg => hlen g (List.mem_cons_of_mem _ hg)) g hg
      have ha := hlen a (List.mem_cons_of_mem _ List.mem_cons_self)
      have hnext : a.start = h.start + h.length := hcont.1
      unfold Segment.lastCoord at *
      omega

/-- A contiguous queue passes over no roll: between those of its head and its tail, each holds a record. -/
theorem Contiguous.exists_index (hspaced : SeamsSpaced least rolls) (hcont : Contiguous (h :: q))
    (hlen : ∀ g ∈ h :: q, g.length ≤ least) {i : Nat} (hhead : rollIndex rolls h.lastCoord ≤ i) {tail : Segment}
    (htail : (h :: q).getLast? = some tail) (hi : i ≤ rollIndex rolls tail.lastCoord) :
    ∃ g ∈ h :: q, rollIndex rolls g.lastCoord = i := by
  induction q generalizing h with
  | nil =>
    cases htail
    exact ⟨h, List.mem_singleton_self h, le_antisymm hhead hi⟩
  | cons a q ih =>
    rcases Nat.eq_or_lt_of_le hhead with heq | hlt
    · exact ⟨h, List.mem_cons_self, heq⟩
    · have hnext : a.start = h.start + h.length := hcont.1
      have ha := hlen a (List.mem_cons_of_mem _ List.mem_cons_self)
      have hstep : rollIndex rolls a.lastCoord ≤ rollIndex rolls h.lastCoord + 1 :=
        rollIndex_step hspaced (by unfold Segment.lastCoord; omega)
      obtain ⟨g, hg, hindex⟩ := ih hcont.tail (fun g hg => hlen g (List.mem_cons_of_mem _ hg)) (by omega)
        (by simpa using htail)
      exact ⟨g, List.mem_cons_of_mem _ hg, hindex⟩

/-! ### Tables that change -/

/-- Rewriting what a roll counts leaves its id and its seam. -/
def KeepsKey (f : Roll → Roll) : Prop := ∀ r, (f r).id = r.id ∧ (f r).seamAt = r.seamAt

theorem KeepsKey.ids {f : Roll → Roll} (hf : KeepsKey f) (rolls : List Roll) :
    (rolls.map f).map Roll.id = rolls.map Roll.id := by
  rw [List.map_map]
  exact List.map_congr_left fun r _ => (hf r).1

theorem KeepsKey.mayHold {f : Roll → Roll} (hf : KeepsKey f) (r : Roll) (x : Int) :
    (f r).mayHold x ↔ r.mayHold x := by
  unfold Roll.mayHold
  rw [(hf r).2]

theorem SeamsSpaced.map {f : Roll → Roll} (hf : KeepsKey f) (hspaced : SeamsSpaced least rolls) :
    SeamsSpaced least (rolls.map f) := by
  induction rolls with
  | nil => trivial
  | cons a rolls ih =>
    cases rolls with
    | nil => trivial
    | cons b rolls =>
      refine ⟨?_, ih hspaced.2⟩
      rw [(hf a).2, (hf b).2]
      exact hspaced.1

theorem RollTable.map {f : Roll → Roll} (hf : KeepsKey f) (htable : RollTable least next rolls) :
    RollTable least next (rolls.map f) where
  follow := by rw [hf.ids]; exact htable.follow
  nodup := by rw [hf.ids]; exact htable.nodup
  range := by rw [hf.ids]; exact htable.range
  spaced := htable.spaced.map hf

theorem OnRoll.map {f : Roll → Roll} (hf : KeepsKey f) (hg : OnRoll rolls g) : OnRoll (rolls.map f) g := by
  obtain ⟨before, r, after, rfl, hid, hr, hafter⟩ := hg
  refine ⟨before.map f, f r, after.map f, by simp, by rw [hid, (hf r).1], ?_, fun x hx => ?_⟩
  · rw [hf.mayHold]
    exact hr.imp (fun h => by rw [h]; rfl) id
  · obtain ⟨y, hy, rfl⟩ := List.mem_map.mp hx
    rw [hf.mayHold]
    exact hafter y hy

theorem IdsFollow.tail {a : Nat} {l : List Nat} (h : IdsFollow (a :: l)) : IdsFollow l := by
  cases l with
  | nil => trivial
  | cons b l => exact h.2

theorem RollTable.tail {r0 : Roll} (htable : RollTable least next (r0 :: rolls)) : RollTable least next rolls where
  follow := htable.follow.tail
  nodup := (List.nodup_cons.mp htable.nodup).2
  range id hid := htable.range id (by
    rcases List.mem_cons.mp hid with h | h
    · exact h ▸ List.mem_cons_self
    · exact List.mem_cons_of_mem _ (List.mem_cons_of_mem _ h))
  spaced := htable.spaced.tail

/-- A record of another roll than the first stays on its roll without the first. -/
theorem OnRoll.tail {r0 : Roll} (hg : OnRoll (r0 :: rolls) g) (hne : g.roll ≠ r0.id) : OnRoll rolls g := by
  obtain ⟨before, r, after, hsplit, hid, hr, hafter⟩ := hg
  cases before with
  | nil =>
    obtain ⟨rfl, -⟩ := List.cons.inj hsplit
    exact absurd hid hne
  | cons b before =>
    obtain ⟨-, hrest⟩ := List.cons.inj hsplit
    exact ⟨before, r, after, hrest, hid, .inr (hr.resolve_left (List.cons_ne_nil _ _)), hafter⟩

/-! ### The queue on the table -/

/-- The records of a roll in a queue. -/
def recordsOf (q : List Segment) (id : Nat) : Nat := (q.filter fun g => g.roll == id).length

/-- A queue whose records stand on the rolls of a table, which counts them, the head on the first. -/
structure QueueOnTable (low high : Int) (q : List Segment) (rolls : List Roll) : Prop where
  records : ∀ g ∈ q, low ≤ g.length ∧ g.length ≤ high ∧ OnRoll rolls g
  left : ∀ r ∈ rolls, r.left = recordsOf q r.id
  head : ∀ g ∈ q.head?, ∀ r ∈ rolls.head?, g.roll = r.id

theorem State.rollsFollow_iff (s : State) : s.RollsFollow ↔
    RollTable (2 * stagedRepeat s.line.lScr (-2048)) s.web.nextRollId s.web.rolls
    ∧ (s.web.lineState = .run → ∃ r ∈ s.web.rolls.getLast?, r.seamAt = s.web.lastSeam)
    ∧ QueueOnTable (stagedRepeat s.line.lScr (-2048)) (stagedRepeat s.line.lScr 2048) s.web.queue s.web.rolls := by
  constructor
  · rintro ⟨h1, h2, h3, h4, h5, h6, h7, h8⟩
    exact ⟨⟨h1, h2, h3, h4⟩, h5, h6, h7, h8⟩
  · rintro ⟨⟨h1, h2, h3, h4⟩, h5, h6, h7, h8⟩
    exact ⟨h1, h2, h3, h4, h5, h6, h7, h8⟩

/-- What a roll table and its queue are read for at the exit and at the tail: the bounds of the lengths, and no two
records between two seams. -/
structure Laid (low high : Int) (next : Nat) (q : List Segment) (rolls : List Roll) : Prop where
  positive : 0 ≤ low
  short : high ≤ 2 * low
  table : RollTable (2 * low) next rolls
  contiguous : Contiguous q
  queue : ∀ g ∈ q, low ≤ g.length ∧ g.length ≤ high ∧ OnRoll rolls g

section
variable {low high : Int}

theorem Laid.least_nonneg (hl : Laid low high next q rolls) : 0 ≤ 2 * low := by have := hl.positive; omega

theorem Laid.index (hl : Laid low high next q rolls) (hg : g ∈ q) :
    ∃ r, rolls[rollIndex rolls g.lastCoord]? = some r ∧ g.roll = r.id :=
  (hl.queue g hg).2.2.index hl.least_nonneg hl.table.spaced

theorem Laid.index_eq (hl : Laid low high next q rolls) (hg : g ∈ q) {i : Nat} {r : Roll} (hi : rolls[i]? = some r)
    (hid : g.roll = r.id) : rollIndex rolls g.lastCoord = i :=
  (hl.queue g hg).2.2.index_eq hl.least_nonneg hl.table hi hid

theorem Laid.tail (hl : Laid low high next (g :: q) rolls) : Laid low high next q rolls :=
  { hl with contiguous := hl.contiguous.tail, queue := fun g hg => hl.queue g (List.mem_cons_of_mem _ hg) }

/-- Once the head of the first roll has left, the next record stands on the first roll or on the second. -/
theorem Laid.second {r0 : Roll} {rs : List Roll} (hl : Laid low high next (g :: h :: q) (r0 :: rs)) (hg : g.roll = r0.id) :
    h.roll = r0.id ∨ ∃ r1 rest, rs = r1 :: rest ∧ h.roll = r1.id ∧ ∀ x ∈ h :: q, x.roll ≠ r0.id := by
  have hzero : rollIndex (r0 :: rs) g.lastCoord = 0 := hl.index_eq List.mem_cons_self rfl hg
  have hnext : h.start = g.start + g.length := hl.contiguous.1
  obtain ⟨hlow, hhigh, -⟩ := hl.queue h (List.mem_cons_of_mem _ List.mem_cons_self)
  have hstep : rollIndex (r0 :: rs) h.lastCoord ≤ rollIndex (r0 :: rs) g.lastCoord + 1 :=
    rollIndex_step hl.table.spaced (by have := hl.short; unfold Segment.lastCoord; omega)
  obtain ⟨r, hr, hid⟩ := hl.tail.index List.mem_cons_self
  obtain hi | hi : rollIndex (r0 :: rs) h.lastCoord = 0 ∨ rollIndex (r0 :: rs) h.lastCoord = 1 := by omega
  · rw [hi] at hr
    cases hr
    exact .inl hid
  · rw [hi] at hr
    cases rs with
    | nil => cases hr
    | cons r1 rest =>
      cases hr
      refine .inr ⟨r, rest, rfl, hid, fun x hx hx0 => ?_⟩
      have hx1 : rollIndex (r0 :: r :: rest) x.lastCoord = 0 := hl.tail.index_eq hx rfl hx0
      have hlater : h.lastCoord ≤ x.lastCoord := hl.tail.contiguous.head_last_le
        (fun y hy => by have := (hl.tail.queue y hy).1; have := hl.positive; omega) x hx
      have := rollIndex_mono hlater (r0 :: r :: rest)
      omega

/-- Every roll before that of the tail holds a record, where the head stands on the first. -/
theorem Laid.holds_before {r0 : Roll} {rs before after : List Roll} {r : Roll} (hl : Laid low high next (h :: q) (r0 :: rs))
    (hhead : h.roll = r0.id) {tail : Segment} (htail : (h :: q).getLast? = some tail)
    (hsplit : r0 :: rs = before ++ r :: after) (hr : tail.roll = r.id) : ∀ x ∈ before, ∃ g ∈ h :: q, g.roll = x.id := by
  intro x hx
  have hget : (r0 :: rs)[before.length]? = some r := by rw [hsplit]; simp
  have hindex : rollIndex (r0 :: rs) tail.lastCoord = before.length :=
    hl.index_eq (List.mem_of_getLast? htail) hget hr
  obtain ⟨i, hi, hxi⟩ := List.getElem_of_mem hx
  have hxget : (r0 :: rs)[i]? = some x := by
    rw [hsplit, List.getElem?_append_left hi, List.getElem?_eq_getElem hi, hxi]
  have hzero : rollIndex (r0 :: rs) h.lastCoord = 0 := hl.index_eq List.mem_cons_self rfl hhead
  obtain ⟨g, hg, hgi⟩ := hl.contiguous.exists_index hl.table.spaced
    (fun g hg => by have := (hl.queue g hg).2.1; have := hl.short; omega) (i := i) (by omega) htail (by omega)
  obtain ⟨y, hy, hid⟩ := hl.index hg
  rw [hgi, hxget] at hy
  cases hy
  exact ⟨g, hg, hid⟩

end

end
end Sys2Proof.Machine
end

section
/-! PROOFS. The roll table follows the queue, change by change. -/

namespace Sys2Proof.Machine

/-! ### NEXT_ROLL tests on a table (R106) -/

/-- Whether a queue holds a record of a roll. -/
def holdsRoll (queue : List Segment) (r : Roll) : Bool := queue.any fun q => q.roll == r.id

theorem holdsRoll_iff {queue : List Segment} {r : Roll} : holdsRoll queue r = true ↔ ∃ q ∈ queue, q.roll = r.id := by
  simp [holdsRoll]

section
variable {queue : List Segment} {kept before after later : List Roll} {b r : Roll}

/-- The test of a roll of the table reads the rolls after it. -/
theorem nextRollCloses_split (hnodup : ((kept ++ b :: later).map Roll.id).Nodup) :
    nextRollCloses queue b.id (kept ++ b :: later) =
      if holdsRoll queue b = false ∧ ∃ q ∈ queue, ∃ x ∈ later, q.roll = x.id then some b else none := by
  have hkept : ∀ x ∈ kept, decide (x.id ≠ b.id) = true := by
    rw [List.map_append, List.map_cons] at hnodup
    intro x hx
    have := (List.nodup_append.mp hnodup).2.2 x.id (List.mem_map_of_mem hx) b.id List.mem_cons_self
    simpa using this
  unfold nextRollCloses
  rw [List.dropWhile_append_of_pos hkept, List.dropWhile_cons_of_neg (by simp)]
  refine if_congr (and_congr_left fun _ => ?_) rfl rfl
  rw [← Bool.not_eq_true, holdsRoll_iff]
  push Not
  rfl

theorem filter_id_ne (hnodup : ((kept ++ b :: later).map Roll.id).Nodup) :
    (kept ++ b :: later).filter (fun x => decide (x.id ≠ b.id)) = kept ++ later := by
  rw [List.map_append, List.map_cons] at hnodup
  obtain ⟨-, hcons, hdisj⟩ := List.nodup_append.mp hnodup
  obtain ⟨hb, -⟩ := List.nodup_cons.mp hcons
  have hkept : kept.filter (fun x => decide (x.id ≠ b.id)) = kept := List.filter_eq_self.mpr fun x hx =>
    decide_eq_true (hdisj x.id (List.mem_map_of_mem hx) b.id List.mem_cons_self)
  have hlater : later.filter (fun x => decide (x.id ≠ b.id)) = later := List.filter_eq_self.mpr fun x hx =>
    decide_eq_true fun h => hb (h ▸ List.mem_map_of_mem hx)
  rw [List.filter_append, hkept, List.filter_cons_of_neg (by simp), hlater]

/-- Tests of the rolls before one that holds a record close those that hold none, in table order. -/
theorem Ledger.tests_eq (hnodup : ((kept ++ (before ++ r :: after)).map Roll.id).Nodup) (hr : holdsRoll queue r = true)
    (offered : List Report) :
    Ledger.tests queue before ⟨kept ++ (before ++ r :: after), offered⟩ =
      ⟨kept ++ (before.filter (holdsRoll queue) ++ r :: after),
        offered ++ (before.filter fun x => !holdsRoll queue x).map fun x => .roll (rollReport .nextRoll x)⟩ := by
  induction before generalizing kept offered with
  | nil => simp [Ledger.tests]
  | cons b before ih =>
    have hlater : ∃ q ∈ queue, ∃ x ∈ before ++ r :: after, q.roll = x.id := by
      obtain ⟨q, hq, hid⟩ := holdsRoll_iff.mp hr
      exact ⟨q, hq, r, List.mem_append_right _ List.mem_cons_self, hid⟩
    have htests : ∀ l : Ledger, Ledger.tests queue (b :: before) l = Ledger.tests queue before (l.nextRoll queue b.id) :=
      fun _ => rfl
    rw [htests]
    unfold Ledger.nextRoll
    dsimp only
    rw [List.cons_append] at hnodup ⊢
    rw [nextRollCloses_split hnodup]
    cases hb : holdsRoll queue b with
    | true =>
      rw [if_neg (by simp)]
      dsimp only
      rw [List.append_cons, ih (by rwa [← List.append_cons])]
      simp [hb]
    | false =>
      rw [if_pos ⟨rfl, hlater⟩, filter_id_ne hnodup]
      have hrest : ((kept ++ (before ++ r :: after)).map Roll.id).Nodup :=
        hnodup.sublist (((List.sublist_cons_self _ _).append_left kept).map _)
      rw [ih hrest]
      simp [hb]

end

/-! ### The head leaves (R97, R100) -/

section
variable {low high : Int} {next : Nat} {rolls : List Roll} {g : Segment} {rest q : List Segment}

theorem recordsOf_cons (g : Segment) (q : List Segment) (id : Nat) :
    recordsOf (g :: q) id = recordsOf q id + if g.roll = id then 1 else 0 := by
  unfold recordsOf
  by_cases h : g.roll = id <;> simp [h]

theorem recordsOf_append (q q' : List Segment) (id : Nat) : recordsOf (q ++ q') id = recordsOf q id + recordsOf q' id := by
  simp [recordsOf]

/-- With its head gone and the head's roll tallied, the queue stays on the table, or the first roll closes. -/
theorem Laid.leaves (hl : Laid low high next (g :: rest) rolls) (hq : QueueOnTable low high (g :: rest) rolls)
    {f : Roll → Roll} (hf : KeepsKey f) (hleft : ∀ r, (f r).left = if r.id = g.roll then r.left - 1 else r.left) :
    (nextRollCloses rest g.roll (rolls.map f) = none ∧ QueueOnTable low high rest (rolls.map f))
    ∨ ∃ r0 rs, rolls.map f = r0 :: rs ∧ rs ≠ [] ∧ nextRollCloses rest g.roll (rolls.map f) = some r0
      ∧ QueueOnTable low high rest rs := by
  obtain ⟨before, r, after, hsplit, -⟩ := (hq.records g List.mem_cons_self).2.2
  obtain ⟨r0, rs, rfl⟩ : ∃ r0 rs, rolls = r0 :: rs := List.exists_cons_of_ne_nil (by rw [hsplit]; simp)
  have hg0 : g.roll = r0.id := hq.head g rfl r0 rfl
  have hcounts : ∀ r ∈ (r0 :: rs).map f, r.left = recordsOf rest r.id := by
    intro r hr
    obtain ⟨x, hx, rfl⟩ := List.mem_map.mp hr
    have hx' := hq.left x hx
    rw [recordsOf_cons] at hx'
    rw [hleft, (hf x).1]
    by_cases hid : x.id = g.roll
    · rw [if_pos hid]; rw [if_pos hid.symm] at hx'; omega
    · rw [if_neg hid]; rw [if_neg (Ne.symm hid)] at hx'; omega
  have hrecords : ∀ x ∈ rest, low ≤ x.length ∧ x.length ≤ high ∧ OnRoll ((r0 :: rs).map f) x := fun x hx => by
    obtain ⟨h1, h2, h3⟩ := hq.records x (List.mem_cons_of_mem _ hx)
    exact ⟨h1, h2, h3.map hf⟩
  have hnodup := (hl.table.map hf).nodup
  have hcloses := nextRollCloses_split (queue := rest) (kept := []) (b := f r0) (later := rs.map f) (by simpa using hnodup)
  rw [List.nil_append, (hf r0).1, ← hg0, ← List.map_cons] at hcloses
  rw [hcloses]
  cases rest with
  | nil =>
    refine .inl ⟨if_neg (by simp), hrecords, hcounts, fun _ h => nomatch h⟩
  | cons h rest =>
    rcases hl.second hg0 with hh | ⟨r1, rest', rfl, hh, hnone⟩
    · refine .inl ⟨if_neg fun hc => ?_, hrecords, hcounts, fun x hx y hy => ?_⟩
      · have : holdsRoll (h :: rest) (f r0) = true := holdsRoll_iff.mpr ⟨h, List.mem_cons_self, by rw [hh, (hf r0).1]⟩
        rw [hc.1] at this
        cases this
      · cases hx
        cases hy
        rw [hh, (hf r0).1]
    · have hclosed : holdsRoll (h :: rest) (f r0) = false := by
        rw [← Bool.not_eq_true, holdsRoll_iff]
        rintro ⟨x, hx, hid⟩
        exact hnone x hx (by rw [hid, (hf r0).1])
      refine .inr ⟨f r0, (r1 :: rest').map f, rfl, by simp, if_pos ⟨hclosed, h, List.mem_cons_self, f r1,
        List.mem_map_of_mem List.mem_cons_self, by rw [hh, (hf r1).1]⟩, ?_⟩
      · refine ⟨fun x hx => ?_, fun r hr => hcounts r (List.mem_cons_of_mem _ hr), fun x hx y hy => ?_⟩
        · obtain ⟨h1, h2, h3⟩ := hrecords x hx
          exact ⟨h1, h2, h3.tail (by rw [(hf r0).1]; exact hnone x hx)⟩
        · cases hx
          cases hy
          rw [hh, (hf r1).1]

/-! ### A record joins (R95, R103) -/

/-- A record at the tail stands on the last roll that may hold it; the rolls before it that hold none close, and only where
the queue was empty. -/
theorem Laid.joins {r : Roll} {before after : List Roll} (hl : Laid low high next q rolls)
    (hq : QueueOnTable low high q rolls) (hcont : Contiguous (q ++ [g])) (hlow : low ≤ g.length) (hhigh : g.length ≤ high)
    (hsplit : rolls = before ++ r :: after) (hid : g.roll = r.id)
    (hr : before = [] ∨ r.mayHold (g.start + g.length - 1)) (hafter : ∀ x ∈ after, ¬ x.mayHold (g.start + g.length - 1))
    {f : Roll → Roll} (hf : KeepsKey f) (hleft : ∀ r, (f r).left = if r.id = g.roll then r.left + 1 else r.left) :
    ∃ rolls', (before.map f).filter (holdsRoll (q ++ [g])) ++ f r :: after.map f = rolls'
      ∧ RollTable (2 * low) next rolls' ∧ QueueOnTable low high (q ++ [g]) rolls'
      ∧ rolls'.getLast?.map Roll.seamAt = rolls.getLast?.map Roll.seamAt := by
  refine ⟨_, rfl, ?_⟩
  have hrolls : rolls.map f = before.map f ++ f r :: after.map f := by rw [hsplit]; simp
  have hong : OnRoll (rolls.map f) g := OnRoll.map hf ⟨before, r, after, hsplit, hid, hr, hafter⟩
  have hlast : (rolls.map f).getLast?.map Roll.seamAt = rolls.getLast?.map Roll.seamAt := by
    rw [List.getLast?_map, Option.map_map]
    exact congrArg (fun k => Option.map k _) (funext fun r => (hf r).2)
  have hrecords : ∀ x ∈ q ++ [g], low ≤ x.length ∧ x.length ≤ high ∧ OnRoll (rolls.map f) x := by
    intro x hx
    rcases List.mem_append.mp hx with hx | hx
    · obtain ⟨h1, h2, h3⟩ := hq.records x hx
      exact ⟨h1, h2, h3.map hf⟩
    · rw [List.mem_singleton.mp hx]
      exact ⟨hlow, hhigh, hong⟩
  have hcounts : ∀ x ∈ rolls.map f, x.left = recordsOf (q ++ [g]) x.id := by
    intro x hx
    obtain ⟨y, hy, rfl⟩ := List.mem_map.mp hx
    rw [hleft, (hf y).1, recordsOf_append, recordsOf_cons, ← hq.left y hy]
    by_cases h : y.id = g.roll
    · rw [if_pos h, if_pos h.symm]; rfl
    · rw [if_neg h, if_neg (Ne.symm h)]; rfl
  cases q with
  | nil =>
    have hempty : (before.map f).filter (holdsRoll ([] ++ [g])) = [] := by
      refine List.filter_eq_nil_iff.mpr fun x hx => ?_
      rw [Bool.not_eq_true, ← Bool.not_eq_true, holdsRoll_iff]
      rintro ⟨y, hy, hxid⟩
      rw [List.mem_singleton.mp hy, hid, ← (hf r).1] at hxid
      have hnodup := (hl.table.map hf).nodup
      rw [hrolls, List.map_append, List.map_cons] at hnodup
      exact (List.nodup_append.mp hnodup).2.2 x.id (List.mem_map_of_mem hx) (f r).id List.mem_cons_self hxid.symm
    rw [hempty, List.nil_append]
    have htable := hl.table.map hf
    rw [hrolls] at htable
    have hdrop : ∀ l : List Roll, RollTable (2 * low) next (l ++ f r :: after.map f) →
        RollTable (2 * low) next (f r :: after.map f) := by
      intro l
      induction l with
      | nil => exact id
      | cons a l ih => exact fun h => ih h.tail
    refine ⟨hdrop _ htable, ⟨fun x hx => ?_, fun x hx => ?_, fun x hx y hy => ?_⟩, ?_⟩
    · rw [List.nil_append, List.mem_singleton] at hx
      subst hx
      refine ⟨hlow, hhigh, [], f r, after.map f, rfl, by rw [hid, (hf r).1], .inl rfl, fun y hy => ?_⟩
      obtain ⟨z, hz, rfl⟩ := List.mem_map.mp hy
      rw [hf.mayHold]
      exact hafter z hz
    · exact hcounts x (by rw [hrolls]; exact List.mem_append_right _ hx)
    · cases hx
      cases hy
      rw [hid, (hf r).1]
    · rw [← hlast, hrolls, List.getLast?_append]
      cases hlater : (f r :: after.map f).getLast? with
      | none => cases List.getLast?_eq_none_iff.mp hlater
      | some _ => rfl
  | cons h q =>
    have hl' : Laid low high next ((h :: q) ++ [g]) (rolls.map f) :=
      { hl with table := hl.table.map hf, contiguous := hcont, queue := hrecords }
    obtain ⟨r0, rs, hhead⟩ : ∃ r0 rs, rolls = r0 :: rs := List.exists_cons_of_ne_nil (by rw [hsplit]; simp)
    have hh0 : h.roll = (f r0).id := by
      rw [(hf r0).1]
      exact hq.head h rfl r0 (by rw [hhead]; rfl)
    have hall : (before.map f).filter (holdsRoll (h :: q ++ [g])) = before.map f := by
      refine List.filter_eq_self.mpr fun x hx => holdsRoll_iff.mpr ?_
      rw [hhead, List.map_cons] at hl'
      have htail : (h :: q ++ [g]).getLast? = some g := List.getLast?_concat
      exact hl'.holds_before (r := f r) (after := after.map f) hh0 htail (by rw [← hrolls, hhead]; rfl) (by rw [hid, (hf r).1]) x hx
    rw [hall, ← hrolls]
    refine ⟨hl.table.map hf, ⟨hrecords, hcounts, fun x hx y hy => ?_⟩, hlast⟩
    cases hx
    rw [hhead] at hy
    cases hy
    exact hh0

/-! ### A seam (R104, R105) -/

theorem IdsFollow.concat {l : List Nat} {a : Nat} (h : IdsFollow (l ++ [a])) : IdsFollow (l ++ [a] ++ [nextId a]) := by
  induction l with
  | nil => exact ⟨rfl, trivial⟩
  | cons b l ih =>
    cases l with
    | nil => exact ⟨h.1, rfl, trivial⟩
    | cons c l => exact ⟨h.1, ih h.2⟩

/-- Fewer than 65,536 ids that follow one another are all different. -/
theorem IdsFollow.nodup {l : List Nat} (h : IdsFollow l) (hrange : ∀ id ∈ l, 1 ≤ id ∧ id ≤ 65535)
    (hlen : l.length ≤ 65535) : l.Nodup := by
  have hstep : ∀ (a : Nat) (l : List Nat), IdsFollow (a :: l) → 1 ≤ a → a ≤ 65535 → ∀ (i : Nat) (b : Nat),
      l[i]? = some b → b = if a + i + 1 ≤ 65535 then a + i + 1 else (a + i) % 65535 + 1 := by
    intro a l
    induction l generalizing a with
    | nil => intro _ _ _ i b hi; cases hi
    | cons c l ih =>
      intro hf h1 h2 i b hi
      obtain ⟨hc, hf⟩ := hf
      cases i with
      | zero =>
        cases hi
        rw [hc]
        split <;> split <;> omega
      | succ i =>
        have := ih c hf (by rw [hc]; split <;> omega) (by rw [hc]; split <;> omega) i b hi
        rw [this, hc]
        split_ifs <;> omega
  induction l with
  | nil => exact List.nodup_nil
  | cons a l ih =>
    refine List.nodup_cons.mpr ⟨fun hmem => ?_, ih h.tail (fun id hid => hrange id (List.mem_cons_of_mem _ hid)) ?_⟩
    · obtain ⟨i, hi, hget⟩ := List.getElem_of_mem hmem
      obtain ⟨h1, h2⟩ := hrange a List.mem_cons_self
      have := hstep a l h h1 h2 i a (by rw [List.getElem?_eq_getElem hi, hget])
      rw [List.length_cons] at hlen
      split_ifs at this <;> omega
    · rw [List.length_cons] at hlen
      omega

theorem SeamsSpaced.concat {least c : Int} {n : Roll} (h : SeamsSpaced least rolls) (hn : n.seamAt = some c)
    (hfar : ∀ r ∈ rolls.getLast?, ∀ d, r.seamAt = some d → d + least ≤ c) : SeamsSpaced least (rolls ++ [n]) := by
  induction rolls with
  | nil => trivial
  | cons a rolls ih =>
    cases rolls with
    | nil => exact ⟨⟨c, hn, fun d hd => hfar a rfl d hd⟩, trivial⟩
    | cons b rolls => exact ⟨h.1, ih h.2 fun r hr => hfar r (by simpa using hr)⟩

/-- A seam opens a roll behind the others, with the next id. -/
theorem RollTable.concat {least c : Int} {n : Roll} (h : RollTable least next rolls) (hlen : rolls.length ≤ 8)
    (hid : n.id = next) (hn : n.seamAt = some c) (hfar : ∀ r ∈ rolls.getLast?, ∀ d, r.seamAt = some d → d + least ≤ c) :
    RollTable least (nextId next) (rolls ++ [n]) := by
  have hids : (rolls ++ [n]).map Roll.id = rolls.map Roll.id ++ [next] := by rw [List.map_append, ← hid]; rfl
  have hrange : ∀ id ∈ rolls.map Roll.id ++ [next], 1 ≤ id ∧ id ≤ 65535 := fun id hmem =>
    h.range id (by simpa [or_comm] using hmem)
  have hnext : 1 ≤ nextId next ∧ nextId next ≤ 65535 := by
    have := h.range next List.mem_cons_self
    unfold nextId
    split <;> omega
  refine ⟨?_, ?_, ?_, h.spaced.concat hn hfar⟩ <;> rw [hids]
  · exact h.follow.concat
  · exact h.follow.nodup hrange (by simp; omega)
  · intro id hmem
    rcases List.mem_cons.mp hmem with rfl | hmem
    · exact hnext
    · exact hrange id hmem

end
end Sys2Proof.Machine
end

section
/-! PROOFS. The roll table follows the queue: seams, and every change. -/

namespace Sys2Proof.Machine

section
variable {low high : Int} {next : Nat} {rolls : List Roll} {g h : Segment} {q : List Segment}

/-! ### The records that a seam moves (R105) -/

/-- In a contiguous queue of records with length, the tail ends last. -/
theorem Contiguous.le_tail_last (hcont : Contiguous q) (hlen : ∀ g ∈ q, 0 ≤ g.length) {tail : Segment}
    (htail : q.getLast? = some tail) : ∀ g ∈ q, g.lastCoord ≤ tail.lastCoord := by
  induction q with
  | nil => exact fun _ h => nomatch h
  | cons a q ih =>
    cases q with
    | nil =>
      obtain rfl : a = tail := by simpa using htail
      intro g hg
      rw [List.mem_singleton.mp hg]
    | cons b q =>
      have hrest := ih hcont.tail (fun g hg => hlen g (List.mem_cons_of_mem _ hg)) (by simpa using htail)
      intro g hg
      rcases List.mem_cons.mp hg with rfl | hg
      · have hfirst := hcont.head_last_le hlen b (List.mem_cons_of_mem _ List.mem_cons_self)
        exact hfirst.trans (hrest b List.mem_cons_self)
      · exact hrest g hg

theorem Segment.seamed_span (id : Nat) (c : Int) (g : Segment) :
    (g.seamed id c).start = g.start ∧ (g.seamed id c).length = g.length ∧ (g.seamed id c).lastCoord = g.lastCoord := by
  unfold Segment.seamed
  split <;> exact ⟨rfl, rfl, rfl⟩

theorem Segment.seamed_roll (id : Nat) (c : Int) (g : Segment) :
    (g.seamed id c).roll = if c ≤ g.lastCoord then id else g.roll := by
  unfold Segment.seamed
  split <;> rfl

/-- A roll but the new one keeps the records that are not moved. -/
theorem recordsOf_seamed {id : Nat} (hid : id ≠ next) (c : Int) (q : List Segment) :
    recordsOf q id = recordsOf (q.map (Segment.seamed next c)) id + recordsOf (movedBy c q) id := by
  induction q with
  | nil => rfl
  | cons g q ih =>
    rw [List.map_cons, recordsOf_cons, recordsOf_cons, ih, Segment.seamed_roll]
    unfold movedBy
    by_cases h : c ≤ g.lastCoord
    · rw [List.filter_cons_of_pos (by simpa using h), recordsOf_cons, if_pos h, if_neg (Ne.symm hid)]
      omega
    · rw [List.filter_cons_of_neg (by simpa using h), if_neg h]
      omega

/-- The new roll holds the records moved. -/
theorem recordsOf_seamed_new (hnew : ∀ g ∈ q, g.roll ≠ next) (c : Int) :
    recordsOf (q.map (Segment.seamed next c)) next = (movedBy c q).length := by
  induction q with
  | nil => rfl
  | cons g q ih =>
    rw [List.map_cons, recordsOf_cons, ih fun g hg => hnew g (List.mem_cons_of_mem _ hg), Segment.seamed_roll]
    unfold movedBy
    by_cases h : c ≤ g.lastCoord
    · rw [List.filter_cons_of_pos (by simpa using h), if_pos h, if_pos rfl, List.length_cons]
    · rw [List.filter_cons_of_neg (by simpa using h), if_neg h, if_neg (hnew g List.mem_cons_self)]
      rfl

theorem recordsOf_of_all {id : Nat} (h : ∀ g ∈ q, g.roll = id) : recordsOf q id = q.length := by
  unfold recordsOf
  rw [List.filter_eq_self.mpr fun g hg => by simp [h g hg]]

theorem recordsOf_of_none {id : Nat} (h : ∀ g ∈ q, g.roll ≠ id) : recordsOf q id = 0 := by
  unfold recordsOf
  rw [List.filter_eq_nil_iff.mpr fun g hg => by simp [h g hg]]
  rfl

/-- A record that no roll after the last but the last may hold stands on the last. -/
theorem OnRoll.of_last {init : List Roll} {f : Roll} (hg : OnRoll (init ++ [f]) g) (hf : f.mayHold g.lastCoord) :
    g.roll = f.id := by
  obtain ⟨before, r, after, hsplit, hid, -, hafter⟩ := hg
  rcases List.eq_nil_or_concat after with rfl | ⟨after, x, rfl⟩
  · obtain ⟨-, hlast⟩ := List.append_inj' hsplit rfl
    cases hlast
    exact hid
  · simp only [List.concat_eq_append] at hsplit hafter
    rw [← List.cons_append, ← List.append_assoc] at hsplit
    obtain ⟨-, hlast⟩ := List.append_inj' hsplit rfl
    cases hlast
    exact absurd hf (hafter f (by simp))

/-- A roll behind the others that may not hold a record leaves it on its roll. -/
theorem OnRoll.concat {n : Roll} (hg : OnRoll rolls g) (hn : ¬ n.mayHold g.lastCoord) : OnRoll (rolls ++ [n]) g := by
  obtain ⟨before, r, after, rfl, hid, hr, hafter⟩ := hg
  refine ⟨before, r, after ++ [n], by simp, hid, hr, fun x hx => ?_⟩
  rcases List.mem_append.mp hx with hx | hx
  · exact hafter x hx
  · rw [List.mem_singleton.mp hx]
    exact hn

theorem OnRoll.mem_ids (hg : OnRoll rolls g) : g.roll ∈ rolls.map Roll.id := by
  obtain ⟨before, r, after, rfl, hid, -⟩ := hg
  rw [hid]
  exact List.mem_map_of_mem (by simp)

theorem seamRoll_seamAt (id : Nat) (c : Int) (moved : List Segment) : (seamRoll id c moved).seamAt = some c := rfl

theorem seamRoll_mayHold {id : Nat} {c x : Int} {moved : List Segment} : (seamRoll id c moved).mayHold x ↔ c ≤ x := by
  unfold Roll.mayHold
  rw [seamRoll_seamAt]
  exact ⟨fun h => h c rfl, fun h d hd => by cases hd; exact h⟩

/-- The queue and the table after a seam that is far enough from the last: they stand, but that a former last roll which
loses every record closes; it is then the only one before the new. -/
theorem Laid.seam {init : List Roll} {f0 : Roll} {c : Int} (hl : Laid low high next q (init ++ [f0]))
    (hq : QueueOnTable low high q (init ++ [f0])) (hlen : (init ++ [f0]).length ≤ 8)
    (hfar : ∀ d, f0.seamAt = some d → d + 2 * low ≤ c) {f : Roll → Roll} (hf : KeepsKey f)
    (hleft : ∀ r, (f r).left = if r.id = f0.id then r.left - (movedBy c q).length else r.left) :
    RollTable (2 * low) (nextId next) ((init ++ [f0]).map f ++ [seamRoll next c (movedBy c q)])
    ∧ (QueueOnTable low high (q.map (Segment.seamed next c)) ((init ++ [f0]).map f ++ [seamRoll next c (movedBy c q)])
        ∧ (movedBy c q ≠ [] → nextRollCloses (q.map (Segment.seamed next c)) f0.id
            ((init ++ [f0]).map f ++ [seamRoll next c (movedBy c q)]) = none)
      ∨ init = [] ∧ movedBy c q ≠ [] ∧ nextRollCloses (q.map (Segment.seamed next c)) f0.id
            ((init ++ [f0]).map f ++ [seamRoll next c (movedBy c q)]) = some (f f0)
          ∧ QueueOnTable low high (q.map (Segment.seamed next c)) [seamRoll next c (movedBy c q)]) := by
  have hlow := hl.positive
  have hmap : (init ++ [f0]).map f = init.map f ++ [f f0] := by simp
  have hlast : ∀ r ∈ ((init ++ [f0]).map f).getLast?, ∀ d, r.seamAt = some d → d + 2 * low ≤ c := by
    intro r hr d hd
    rw [hmap, List.getLast?_concat] at hr
    cases hr
    exact hfar d (by rw [← (hf f0).2]; exact hd)
  have htable := (hl.table.map hf).concat (n := seamRoll next c (movedBy c q)) (by simpa using hlen) rfl rfl hlast
  refine ⟨htable, ?_⟩
  have hfresh : ∀ id ∈ (init ++ [f0]).map Roll.id, id ≠ next := by
    have hnodup := hl.table.follow.nodup (fun id hid => hl.table.range id
      (by rwa [List.mem_append, List.mem_singleton, or_comm, ← List.mem_cons] at hid))
      (by rw [List.length_append, List.length_map, List.length_singleton]; omega)
    rintro id hid rfl
    exact (List.nodup_append.mp hnodup).2.2 id hid id (List.mem_singleton_self id) rfl
  have hmoved : ∀ x ∈ q, c ≤ x.lastCoord → x.roll = f0.id := fun x hx hcx =>
    (hq.records x hx).2.2.of_last fun d hd => by have := hfar d hd; omega
  have hnew : ∀ x ∈ q, x.roll ≠ next := fun x hx => hfresh _ (hq.records x hx).2.2.mem_ids
  have hmem : ∀ x ∈ movedBy c q, x ∈ q ∧ c ≤ x.lastCoord := fun x hx => by
    obtain ⟨h1, h2⟩ := List.mem_filter.mp hx
    exact ⟨h1, of_decide_eq_true h2⟩
  have hrecords : ∀ x ∈ q.map (Segment.seamed next c), low ≤ x.length ∧ x.length ≤ high
      ∧ OnRoll ((init ++ [f0]).map f ++ [seamRoll next c (movedBy c q)]) x := by
    intro x hx
    obtain ⟨y, hy, rfl⟩ := List.mem_map.mp hx
    obtain ⟨h1, h2, h3⟩ := Segment.seamed_span next c y
    obtain ⟨hlow', hhigh', hon⟩ := hq.records y hy
    refine ⟨h2 ▸ hlow', h2 ▸ hhigh', ?_⟩
    by_cases hc : c ≤ y.lastCoord
    · refine ⟨(init ++ [f0]).map f, seamRoll next c (movedBy c q), [], rfl, ?_, .inr (seamRoll_mayHold.mpr ?_),
        fun _ h => nomatch h⟩
      · rw [Segment.seamed_roll, if_pos hc]; rfl
      · rw [h1, h2]; exact hc
    · have hsame : y.seamed next c = y := if_neg hc
      rw [hsame]
      exact (hon.map hf).concat (by rw [seamRoll_mayHold]; exact hc)
  have hcounts : ∀ x ∈ (init ++ [f0]).map f, x.left = recordsOf (q.map (Segment.seamed next c)) x.id := by
    intro x hx
    obtain ⟨r, hr, rfl⟩ := List.mem_map.mp hx
    have hsum := recordsOf_seamed (hfresh r.id (List.mem_map_of_mem hr)) c q
    have hr' : r.left = recordsOf q r.id := hq.left r hr
    rw [hleft, (hf r).1]
    by_cases hid : r.id = f0.id
    · have hall : recordsOf (movedBy c q) r.id = (movedBy c q).length := recordsOf_of_all fun x hx => by
        rw [hid]; exact hmoved x (hmem x hx).1 (hmem x hx).2
      rw [if_pos hid]
      omega
    · have hnone : recordsOf (movedBy c q) r.id = 0 := recordsOf_of_none fun x hx h => hid (by
        rw [← h]; exact hmoved x (hmem x hx).1 (hmem x hx).2)
      rw [if_neg hid]
      omega
  have hcountNew : (seamRoll next c (movedBy c q)).left
      = recordsOf (q.map (Segment.seamed next c)) (seamRoll next c (movedBy c q)).id := (recordsOf_seamed_new hnew c).symm
  have hcont : Contiguous (q.map (Segment.seamed next c)) := by
    have hplaces : places (q.map (Segment.seamed next c)) = places q := by
      unfold places
      rw [List.map_map]
      refine List.map_congr_left fun g _ => ?_
      unfold Function.comp Segment.seamed Segment.place
      split <;> rfl
    exact hl.contiguous.congr hplaces
  have hcloses := nextRollCloses_split (queue := q.map (Segment.seamed next c)) (kept := init.map f) (b := f f0)
    (later := [seamRoll next c (movedBy c q)]) (by
      have := htable.nodup
      rwa [hmap, List.append_assoc] at this)
  rw [(hf f0).1, show init.map f ++ f f0 :: [seamRoll next c (movedBy c q)]
    = (init ++ [f0]).map f ++ [seamRoll next c (movedBy c q)] by rw [hmap, List.append_assoc]; rfl] at hcloses
  cases q with
  | nil =>
    refine .inl ⟨⟨hrecords, fun x hx => ?_, fun _ h => nomatch h⟩, fun h => absurd rfl h⟩
    rcases List.mem_append.mp hx with hx | hx
    · exact hcounts x hx
    · rw [List.mem_singleton.mp hx]; exact hcountNew
  | cons h q =>
    have hlengths : ∀ g ∈ h :: q, 0 ≤ g.length := fun g hg => by have := (hq.records g hg).1; omega
    have hstands : ∀ x ∈ (init ++ [f0]).map f ++ [seamRoll next c (movedBy c (h :: q))],
        x.left = recordsOf ((h :: q).map (Segment.seamed next c)) x.id := by
      intro x hx
      rcases List.mem_append.mp hx with hx | hx
      · exact hcounts x hx
      · rw [List.mem_singleton.mp hx]; exact hcountNew
    obtain ⟨r0, rs, hr0⟩ : ∃ r0 rs, init ++ [f0] = r0 :: rs := List.exists_cons_of_ne_nil (by simp)
    have hh : h.roll = r0.id := hq.head h rfl r0 (by rw [hr0]; rfl)
    by_cases hc : c ≤ h.lastCoord
    · have hf0 : r0.id = f0.id := by rw [← hh]; exact hmoved h List.mem_cons_self hc
      have hinit : init = [] := by
        cases init with
        | nil => rfl
        | cons a init =>
          obtain ⟨rfl, -⟩ := List.cons.inj hr0
          have hnodup := hl.table.nodup
          rw [List.cons_append, List.map_cons] at hnodup
          exact absurd (hf0 ▸ List.mem_map_of_mem (by simp)) (List.nodup_cons.mp hnodup).1
      have hall : ∀ x ∈ h :: q, c ≤ x.lastCoord := fun x hx => hc.trans (hl.contiguous.head_last_le hlengths x hx)
      have hnames : ∀ x ∈ (h :: q).map (Segment.seamed next c), x.roll = next := by
        intro x hx
        obtain ⟨y, hy, rfl⟩ := List.mem_map.mp hx
        rw [Segment.seamed_roll, if_pos (hall y hy)]
      have hnone : holdsRoll ((h :: q).map (Segment.seamed next c)) (f f0) = false := by
        rw [← Bool.not_eq_true, holdsRoll_iff]
        rintro ⟨x, hx, hid⟩
        rw [hnames x hx, (hf f0).1] at hid
        exact hfresh f0.id (List.mem_map_of_mem (by simp)) hid.symm
      refine .inr ⟨hinit, ?_, ?_, fun x hx => ?_, fun x hx => ?_, fun x hx y hy => ?_⟩
      · exact List.ne_nil_of_mem (List.mem_filter.mpr ⟨List.mem_cons_self, decide_eq_true hc⟩)
      · rw [hcloses]
        exact if_pos ⟨hnone, h.seamed next c, List.mem_cons_self, _, List.mem_singleton_self _,
          hnames _ List.mem_cons_self⟩
      · obtain ⟨h1, h2, -⟩ := hrecords x hx
        exact ⟨h1, h2, [], _, [], rfl, hnames x hx, .inl rfl, fun _ h => nomatch h⟩
      · rw [List.mem_singleton.mp hx]; exact hcountNew
      · cases hy
        cases hx
        exact hnames _ List.mem_cons_self
    · have hsame : h.seamed next c = h := if_neg hc
      have hhead : ∀ g ∈ ((h :: q).map (Segment.seamed next c)).head?,
          ∀ r ∈ ((init ++ [f0]).map f ++ [seamRoll next c (movedBy c (h :: q))]).head?, g.roll = r.id := by
        intro x hx y hy
        rw [hr0] at hy
        cases hx
        cases hy
        rw [hsame, hh, (hf r0).1]
      refine .inl ⟨⟨hrecords, hstands, hhead⟩, fun hne => ?_⟩
      have hl' : Laid low high (nextId next) ((h :: q).map (Segment.seamed next c))
          ((init ++ [f0]).map f ++ [seamRoll next c (movedBy c (h :: q))]) :=
        { positive := hl.positive, short := hl.short, table := htable, contiguous := hcont, queue := hrecords }
      obtain ⟨m, hm⟩ := List.exists_mem_of_ne_nil _ hne
      obtain ⟨tail, htail⟩ : ∃ tail, (h :: q).getLast? = some tail := by
        cases ht : (h :: q).getLast? with
        | none => cases List.getLast?_eq_none_iff.mp ht
        | some tail => exact ⟨tail, rfl⟩
      have htailc : c ≤ tail.lastCoord :=
        (hmem m hm).2.trans (hl.contiguous.le_tail_last hlengths htail m (hmem m hm).1)
      have htail' : ((h :: q).map (Segment.seamed next c)).getLast? = some (tail.seamed next c) := by
        rw [List.getLast?_map, htail]; rfl
      rw [hr0] at hl'
      have hholds := hl'.holds_before (by rw [hsame, hh, (hf r0).1]) htail' (before := (init ++ [f0]).map f)
        (after := []) (r := seamRoll next c (movedBy c (h :: q))) (by rw [hr0]; rfl)
        (by rw [Segment.seamed_roll, if_pos htailc]; rfl) (f f0) (List.mem_map_of_mem (by simp))
      rw [hcloses]
      refine if_neg fun hc' => ?_
      have hheld : holdsRoll ((h :: q).map (Segment.seamed next c)) (f f0) = true := holdsRoll_iff.mpr hholds
      rw [hheld] at hc'
      cases hc'.1

end
end Sys2Proof.Machine
end

section
/-! PROOFS. The roll table follows the queue, change by change, and the statement. -/

namespace Sys2Proof.Machine

/-! ### Where the table and the queue stand -/

/-- What the roll table reads of a queue. -/
def Segment.spot (g : Segment) : Nat × Int × Int := (g.roll, g.start, g.length)

/-- What the roll table reads of a queue, record by record. -/
def spots (q : List Segment) : List (Nat × Int × Int) := q.map Segment.spot

theorem spots_of_bare {q q' : List Segment} (h : bare q' = bare q) : spots q' = spots q := by
  have hbare : ∀ q, spots (bare q) = spots q := fun q => by unfold spots bare; rw [List.map_map]; rfl
  rw [← hbare q', h, hbare]

theorem OnRoll.congr {rolls : List Roll} {g g' : Segment} (hg : OnRoll rolls g) (h : g'.spot = g.spot) :
    OnRoll rolls g' := by
  obtain ⟨hroll, hstart, hlength⟩ : g'.roll = g.roll ∧ g'.start = g.start ∧ g'.length = g.length := by
    simpa [Segment.spot] using h
  unfold OnRoll
  rw [hroll, hstart, hlength]
  exact hg

theorem QueueOnTable.congr {low high : Int} {q q' : List Segment} {rolls : List Roll} (h : QueueOnTable low high q rolls)
    (hspots : spots q' = spots q) : QueueOnTable low high q' rolls := by
  have hcount : ∀ (q : List Segment) (id : Nat), recordsOf q id = ((spots q).filter fun x => x.1 == id).length := by
    intro q id
    unfold recordsOf spots
    rw [List.filter_map, List.length_map]
    rfl
  refine ⟨fun g hg => ?_, fun r hr => ?_, fun g hg r hr => ?_⟩
  · obtain ⟨g', hg', hspot⟩ := List.mem_map.mp (hspots ▸ List.mem_map_of_mem hg : g.spot ∈ spots q)
    obtain ⟨hlow, hhigh, hon⟩ := h.records g' hg'
    have hlength : g'.length = g.length := congrArg (fun x => x.2.2) hspot
    exact ⟨hlength ▸ hlow, hlength ▸ hhigh, hon.congr hspot.symm⟩
  · rw [hcount, hspots, ← hcount]
    exact h.left r hr
  · have hhead : (spots q').head? = some g.spot := by unfold spots; rw [List.head?_map, hg]; rfl
    rw [hspots] at hhead
    unfold spots at hhead
    rw [List.head?_map] at hhead
    obtain ⟨g', hg', hspot⟩ := Option.map_eq_some_iff.mp hhead
    have := h.head g' hg' r hr
    have hroll : g'.roll = g.roll := congrArg Prod.fst hspot
    rw [← hroll, this]

/-- What keeps the roll table beside it: the staged repeat and the order of the queue. -/
structure State.RollsInv (s : State) : Prop where
  fabric : FabricFits s.line.lScr s.phase
  contiguous : Contiguous s.web.queue
  rolls : s.RollsFollow

/-- The shortest and the longest staged repeat differ by less than the shortest (R33). -/
theorem stagedRepeat_bounds {lScr stretch : Int} (h1 : 40000 ≤ lScr) (h2 : lScr ≤ 204800) (h3 : -2048 ≤ stretch)
    (h4 : stretch ≤ 2048) : 0 ≤ stagedRepeat lScr (-2048) ∧ stagedRepeat lScr 2048 ≤ 2 * stagedRepeat lScr (-2048)
      ∧ stagedRepeat lScr (-2048) ≤ stagedRepeat lScr stretch ∧ stagedRepeat lScr stretch ≤ stagedRepeat lScr 2048 := by
  have a1 : -(lScr * 2048) ≤ lScr * stretch := by nlinarith
  have a2 : lScr * stretch ≤ lScr * 2048 := by nlinarith
  unfold stagedRepeat
  omega

section
variable {s t u : State}

theorem State.RollsInv.laid (hs : s.RollsInv) : Laid (stagedRepeat s.line.lScr (-2048)) (stagedRepeat s.line.lScr 2048)
    s.web.nextRollId s.web.queue s.web.rolls := by
  obtain ⟨h1, h2, h3, h4, -⟩ := hs.fabric
  obtain ⟨hpos, hshort, -⟩ := stagedRepeat_bounds h1 h2 h3 h4
  obtain ⟨htable, -, hqueue⟩ := s.rollsFollow_iff.mp hs.rolls
  exact ⟨hpos, hshort, htable, hs.contiguous, hqueue.records⟩

theorem State.RollsInv.onTable (hs : s.RollsInv) : QueueOnTable (stagedRepeat s.line.lScr (-2048))
    (stagedRepeat s.line.lScr 2048) s.web.queue s.web.rolls := by
  obtain ⟨-, -, hqueue⟩ := s.rollsFollow_iff.mp hs.rolls
  exact hqueue

/-- In RUN the last roll has the last seam (R104). -/
theorem State.RollsInv.last (hs : s.RollsInv) (hrun : s.web.lineState = .run) :
    s.web.rolls.getLast?.map Roll.seamAt = some s.web.lastSeam := by
  obtain ⟨-, hlast, -⟩ := s.rollsFollow_iff.mp hs.rolls
  obtain ⟨r, hr, hseam⟩ := hlast hrun
  rw [Option.mem_def.mp hr, ← hseam]
  rfl

theorem exists_last_of_map {rolls : List Roll} {seam : Option Int} (h : rolls.getLast?.map Roll.seamAt = some seam) :
    ∃ r ∈ rolls.getLast?, r.seamAt = seam := by
  obtain ⟨r, hr, hseam⟩ := Option.map_eq_some_iff.mp h
  exact ⟨r, hr, hseam⟩

/-- The table follows where what it reads stands. -/
theorem State.RollsInv.follow (hs : s.RollsInv) (hline : t.line.lScr = s.line.lScr)
    (hqueue : spots t.web.queue = spots s.web.queue) (hrolls : t.web.rolls = s.web.rolls)
    (hnext : t.web.nextRollId = s.web.nextRollId)
    (hrun : t.web.lineState = .run → s.web.lineState = .run ∧ t.web.lastSeam = s.web.lastSeam) : t.RollsFollow := by
  refine t.rollsFollow_iff.mpr ?_
  rw [hline, hrolls, hnext]
  refine ⟨hs.laid.table, fun ht => ?_, hs.onTable.congr hqueue⟩
  obtain ⟨hrun, hlast⟩ := hrun ht
  rw [hlast]
  exact exists_last_of_map (hs.last hrun)

/-- The table stands where what it reads stands. -/
theorem State.RollsInv.congr (hs : s.RollsInv) (hline : t.line.lScr = s.line.lScr)
    (hphase : t.phase.stretch = s.phase.stretch ∧ t.phase.lFab = s.phase.lFab) (hqueue : bare t.web.queue = bare s.web.queue)
    (hrolls : t.web.rolls = s.web.rolls) (hnext : t.web.nextRollId = s.web.nextRollId)
    (hrun : t.web.lineState = .run → s.web.lineState = .run ∧ t.web.lastSeam = s.web.lastSeam) : t.RollsInv where
  fabric := by
    unfold FabricFits
    rw [hline, hphase.1, hphase.2]
    exact hs.fabric
  contiguous := hs.contiguous.congr (places_of_bare hqueue)
  rolls := hs.follow hline (spots_of_bare hqueue) hrolls hnext hrun

theorem State.RollsInv.of_web (hs : s.RollsInv) (hline : t.line = s.line) (hphase : t.phase = s.phase)
    (hweb : t.web = s.web) : t.RollsInv :=
  hs.congr (by rw [hline]) (by rw [hphase]; exact ⟨rfl, rfl⟩) (by rw [hweb]) (by rw [hweb]) (by rw [hweb])
    (by rw [hweb]; exact fun h => ⟨h, rfl⟩)

/-- With nothing queued and no roll open, outside RUN, only the next id is to be right. -/
theorem State.rollsFollow_of_empty (hqueue : s.web.queue = []) (hrolls : s.web.rolls = []) (hrun : s.web.lineState ≠ .run)
    (hnext : 1 ≤ s.web.nextRollId ∧ s.web.nextRollId ≤ 65535) : s.RollsFollow := by
  refine s.rollsFollow_iff.mpr ?_
  rw [hqueue, hrolls]
  exact ⟨⟨trivial, List.nodup_nil, fun id hid => List.mem_singleton.mp hid ▸ hnext, trivial⟩, fun h => absurd h hrun,
    ⟨fun _ h => (nomatch h), fun _ h => (nomatch h), fun _ h => (nomatch h)⟩⟩

theorem State.RollsInv.next_range (hs : s.RollsInv) : 1 ≤ s.web.nextRollId ∧ s.web.nextRollId ≤ 65535 :=
  hs.laid.table.range _ List.mem_cons_self

/-! ### The head leaves (R97, R100) -/

/-- The tally of a leaving in the roll table (R153). -/
def leaveRoll (grade : Grade) (g : Segment) (r : Roll) : Roll := if r.id = g.roll then r.leave grade g.length else r

theorem leaveRoll_keepsKey (grade : Grade) (g : Segment) : KeepsKey (leaveRoll grade g) := fun r => by
  unfold leaveRoll
  split <;> exact ⟨rfl, rfl⟩

/-- The head gone and tallied, the NEXT_ROLL test of its roll keeps the table following. -/
theorem State.RollsInv.leaves (hs : s.RollsInv) {g : Segment} {rest : List Segment} (hq : s.web.queue = g :: rest)
    (grade : Grade) (hweb : u.web = { s.web with queue := rest, rolls := s.web.rolls.map (leaveRoll grade g) })
    (hline : u.line = s.line) (hphase : u.phase = s.phase) : (u.nextRollTest g.roll).RollsInv := by
  have hl := hs.laid
  have hon := hs.onTable
  rw [hq] at hl hon
  have hkey := leaveRoll_keepsKey grade g
  have hleft : ∀ r, (leaveRoll grade g r).left = if r.id = g.roll then r.left - 1 else r.left := by
    intro r
    unfold leaveRoll
    split <;> rfl
  have hlast : (s.web.rolls.map (leaveRoll grade g)).getLast?.map Roll.seamAt = s.web.rolls.getLast?.map Roll.seamAt := by
    rw [List.getLast?_map, Option.map_map]
    exact congrArg (fun k => Option.map k _) (funext fun r => (hkey r).2)
  have hframe := WebOnly.nextRollTest g.roll u
  have hfab : FabricFits (u.nextRollTest g.roll).line.lScr (u.nextRollTest g.roll).phase := by
    rw [hframe.1, hline, hphase]
    exact hs.fabric
  have hcont : Contiguous (u.nextRollTest g.roll).web.queue := by
    rw [State.nextRollTest_queue, hweb]
    exact hl.contiguous.tail
  refine ⟨hfab, hcont, (State.rollsFollow_iff _).mpr ?_⟩
  rw [show (u.nextRollTest g.roll).line = s.line by rw [hframe.1, hline], State.nextRollTest_eq, hweb]
  dsimp only
  rcases hl.leaves hon hkey hleft with ⟨hnone, hqueue⟩ | ⟨r0, rs, hrolls, hne, hsome, hqueue⟩
  · rw [hnone, hweb]
    exact ⟨hl.table.map hkey, fun hrun => exists_last_of_map (hlast.trans (hs.last hrun)), hqueue⟩
  · have htable := hl.table.map hkey
    rw [hrolls] at htable
    have hfilter : (r0 :: rs).filter (fun x => x.id != r0.id) = rs := by
      have h := filter_id_ne (kept := []) htable.nodup
      rw [List.nil_append, List.nil_append] at h
      rwa [show (fun x : Roll => decide (x.id ≠ r0.id)) = fun x => x.id != r0.id from
        funext fun x => by by_cases hx : x.id = r0.id <;> simp [hx]] at h
    rw [hsome]
    dsimp only
    rw [State.closeRoll_web, hweb]
    dsimp only
    rw [hrolls, hfilter]
    refine ⟨htable.tail, fun hrun => exists_last_of_map ?_, hqueue⟩
    rw [← hs.last hrun, ← hlast, hrolls]
    obtain ⟨a, rs, rfl⟩ := List.exists_cons_of_ne_nil hne
    simp

theorem State.RollsInv.evict (hs : s.RollsInv) : s.evict.RollsInv := by
  rcases s.evict_cases with ⟨-, h⟩ | ⟨g, rest, hq, h⟩ <;> rw [h]
  · exact hs
  · refine hs.leaves hq (gradeOf (faultsOf s.line s.cure .evicted g)) ?_ ?_ ?_
    · rw [State.latch_web, State.gradeRecord_web]; rfl
    · rw [State.latch_line, (WebOnly.gradeRecord _ _ _).1]; rfl
    · rw [State.latch_phase, (WebOnly.gradeRecord _ _ _).1]; rfl

theorem State.RollsInv.drainIfEmpty (hs : s.RollsInv) : s.drainIfEmpty.RollsInv := by
  have hframe := WebOnly.drainIfEmpty s
  refine ⟨?_, ?_, ?_⟩
  · rw [hframe.1]; exact hs.fabric
  · rw [State.drainIfEmpty_queue]; exact hs.contiguous
  · by_cases hc : s.web.lineState = .drain ∧ s.web.queue = []
    · have hweb : s.drainIfEmpty.web = { s.web with rolls := [], lineState := .setup } := by
        rw [State.drainIfEmpty_web, if_pos hc]
      refine State.rollsFollow_of_empty ?_ ?_ ?_ ?_ <;> rw [hweb]
      · exact hc.2
      · exact LineState.noConfusion
      · exact hs.next_range
    · have hsame : s.drainIfEmpty = s := if_neg hc
      rw [hsame]
      exact hs.rolls

theorem State.RollsInv.exitHead (hs : s.RollsInv) {g : Segment} {rest : List Segment} (hq : s.web.queue = g :: rest) :
    (s.exitHead g rest).RollsInv := by
  refine State.RollsInv.drainIfEmpty (hs.leaves hq (gradeOf (faultsOf s.line s.cure .exit g)) ?_ ?_ ?_)
  · rw [State.gradeRecord_web]; rfl
  · rw [(WebOnly.gradeRecord _ _ _).1]; rfl
  · rw [(WebOnly.gradeRecord _ _ _).1]; rfl

theorem State.RollsInv.exitLoop (x : Int) (n : Nat) (hs : s.RollsInv) : (s.exitLoop x n).RollsInv := by
  induction n generalizing s with
  | zero => exact hs
  | succ n ih =>
    unfold State.exitLoop
    split
    · exact hs
    · rename_i g rest hq
      split
      · exact ih (hs.exitHead hq)
      · exact hs

theorem State.RollsInv.webTests (hs : s.RollsInv) : s.webTests.RollsInv := by
  unfold State.webTests
  split
  · exact hs
  · have hcamera : s.cameraTest.RollsInv := by
      have hframe := WebOnly.cameraTest s
      have hpass := s.cameraTest_passes
      unfold WebMap.Passes at hpass
      refine hs.congr (by rw [hframe.1]) (by rw [hframe.1]; exact ⟨rfl, rfl⟩) s.cameraTest_bare ?_ (by rw [hpass])
        (by rw [hpass]; exact fun h => ⟨h, rfl⟩)
      unfold State.cameraTest
      rw [State.latchIf_web]
      rfl
    unfold State.exitTest
    split
    · exact hcamera
    · exact hcamera.exitLoop _ _

/-! ### A record joins (R95) -/

theorem gain_keepsKey (g : Segment) : KeepsKey fun r => if r.id = g.roll then r.gain g.seq else r := fun r => by
  dsimp only
  split <;> exact ⟨rfl, rfl⟩

/-- The rolls before the one that a record joins. -/
theorem rollsBefore_eq {g : Segment} {before after : List Roll} {r : Roll}
    (hnodup : ((before ++ r :: after).map Roll.id).Nodup) (hid : r.id = g.roll) :
    rollsBefore g (before ++ r :: after) = before := by
  unfold rollsBefore
  rw [List.map_append, List.map_cons] at hnodup
  rw [List.takeWhile_append_of_pos]
  · rw [List.takeWhile_cons_of_neg (by simp [hid]), List.append_nil]
  · intro x hx
    have := (List.nodup_append.mp hnodup).2.2 x.id (List.mem_map_of_mem hx) r.id List.mem_cons_self
    simpa [← hid] using this

/-- The rolls that gained a record and the rolls before, with the ledger's tests (R95, steps 4 and 6). -/
theorem Ledger.joins_eq {queue : List Segment} {g : Segment} {before after : List Roll} {r : Roll}
    (hnodup : ((before ++ r :: after).map Roll.id).Nodup) (hid : g.roll = r.id) (offered : List Report) :
    Ledger.joins queue g ⟨before ++ r :: after, offered⟩ =
      ⟨before.filter (holdsRoll (queue ++ [g])) ++ r.gain g.seq :: after,
        offered ++ (before.filter fun x => !holdsRoll (queue ++ [g]) x).map fun x => .roll (rollReport .nextRoll x)⟩ := by
  have hne : ∀ x ∈ before ++ after, x.id ≠ g.roll := by
    rw [List.map_append, List.map_cons] at hnodup
    obtain ⟨-, hcons, hdisj⟩ := List.nodup_append.mp hnodup
    intro x hx
    rw [hid]
    rcases List.mem_append.mp hx with hx | hx
    · exact hdisj x.id (List.mem_map_of_mem hx) r.id List.mem_cons_self
    · exact fun h => (List.nodup_cons.mp hcons).1 (h ▸ List.mem_map_of_mem hx)
  have hsame : ∀ l : List Roll, (∀ x ∈ l, x ∈ before ++ after) → gained g l = l := fun l hl => by
    unfold gained
    exact (List.map_congr_left fun x hx => if_neg (hne x (hl x hx))).trans (List.map_id _)
  have hgained : gained g (before ++ r :: after) = before ++ r.gain g.seq :: after := by
    have happ : ∀ l l', gained g (l ++ l') = gained g l ++ gained g l' := fun l l' => List.map_append
    have hcons : gained g (r :: after) = r.gain g.seq :: gained g after := by
      unfold gained
      rw [List.map_cons, if_pos hid.symm]
    rw [happ, hcons, hsame before fun x hx => List.mem_append_left _ hx, hsame after fun x hx => List.mem_append_right _ hx]
  have hnodup' : ((before ++ r.gain g.seq :: after).map Roll.id).Nodup := by
    rw [← hgained, gained_ids]
    exact hnodup
  unfold Ledger.joins
  dsimp only
  rw [hgained, rollsBefore_eq hnodup' hid.symm]
  have hheld : holdsRoll (queue ++ [g]) (r.gain g.seq) = true := holdsRoll_iff.mpr ⟨g, by simp, hid⟩
  exact Ledger.tests_eq (kept := []) hnodup' hheld offered

/-- A new record, as long as a staged repeat, keeps the table following. -/
theorem State.RollsInv.joined (hs : s.RollsInv) (hrun : s.web.lineState = .run)
    (hlength : (s.screen 0).chan.lcur = s.phase.lFab) : s.joined.RollsInv := by
  obtain ⟨h1, h2, h3, h4, hfab⟩ := hs.fabric
  obtain ⟨-, -, hlow, hhigh⟩ := stagedRepeat_bounds h1 h2 h3 h4
  have hl := hs.laid
  have hframe : WebOnly s s.joined := (Books.opened s).joined.webOnly
  have hpass := s.joined_passes
  unfold WebMap.Passes at hpass
  have hne : s.web.rolls ≠ [] := by
    intro hnil
    have := hs.last hrun
    rw [hnil] at this
    cases this
  obtain ⟨r, hr⟩ := Option.isSome_iff_exists.mp (rollFor_isSome (s.newStart + (s.screen 0).chan.lcur - 1) hne)
  obtain ⟨before, after, hsplit, hmay, hafter⟩ := rollFor_split hr
  have hid : s.newSegment.roll = r.id := by
    unfold State.newSegment
    dsimp only
    rw [hr]
    rfl
  have hcont : Contiguous (s.web.queue ++ [s.newSegment]) :=
    hs.contiguous.append fun tail htail => by simp only [State.newSegment, State.newStart, Option.mem_def.mp htail]
  have hleft : ∀ x : Roll, (if x.id = s.newSegment.roll then x.gain s.newSegment.seq else x).left
      = if x.id = s.newSegment.roll then x.left + 1 else x.left := fun x => by split <;> rfl
  have hnodup := hl.table.nodup
  rw [hsplit] at hnodup
  have hbefore : before.map (fun x => if x.id = s.newSegment.roll then x.gain s.newSegment.seq else x) = before := by
    rw [List.map_append, List.map_cons] at hnodup
    refine (List.map_congr_left fun x hx => if_neg ?_).trans (List.map_id _)
    rw [hid]
    exact (List.nodup_append.mp hnodup).2.2 x.id (List.mem_map_of_mem hx) r.id List.mem_cons_self
  have hlater : after.map (fun x => if x.id = s.newSegment.roll then x.gain s.newSegment.seq else x) = after := by
    rw [List.map_append, List.map_cons] at hnodup
    obtain ⟨-, hcons, -⟩ := List.nodup_append.mp hnodup
    refine (List.map_congr_left fun x hx => if_neg ?_).trans (List.map_id _)
    rw [hid]
    exact fun h => (List.nodup_cons.mp hcons).1 (h ▸ List.mem_map_of_mem hx)
  obtain ⟨rolls', hrolls', htable, hqueue, hlast⟩ := hl.joins hs.onTable hcont (by rw [State.newSegment, hlength, hfab]; exact hlow)
    (by rw [State.newSegment, hlength, hfab]; exact hhigh) hsplit hid hmay hafter (gain_keepsKey s.newSegment) hleft
  rw [hbefore, hlater, if_pos hid.symm] at hrolls'
  have hrolls : s.joined.web.rolls = rolls' := by
    have hbooks := (Books.opened s).joined.rolls
    rw [hsplit, Ledger.joins_eq hnodup hid] at hbooks
    rw [hbooks, ← hrolls']
  refine ⟨?_, ?_, (State.rollsFollow_iff _).mpr ?_⟩
  · rw [hframe.1]; exact hs.fabric
  · rw [State.joined_queue]; exact hcont
  · rw [hrolls, State.joined_queue, show s.joined.line = s.line by rw [hframe.1], hpass]
    exact ⟨htable, fun _ => exists_last_of_map (hlast.trans (hs.last hrun)), hqueue⟩

theorem State.RollsInv.advanceSeq (hs : s.RollsInv) : s.advanceSeq.RollsInv := by
  have hframe := WebOnly.advanceSeq s
  have hrun := State.advanceSeq_sameRun s
  refine hs.congr (by rw [hframe.1]) (by rw [hframe.1]; exact ⟨rfl, rfl⟩) (by rw [State.advanceSeq_queue]) ?_
    hrun.nextRollId fun h => ⟨hrun.lineState ▸ h, hrun.lastSeam⟩
  rw [State.advanceSeq_web]
  split <;> rfl

theorem State.RollsInv.create (hs : s.RollsInv) (hrun : s.web.lineState = .run)
    (hlength : (s.screen 0).chan.lcur = s.phase.lFab) : s.create.RollsInv := by
  rcases s.create_cases with ⟨-, h⟩ | ⟨-, -, h⟩ | ⟨-, -, h⟩ <;> rw [h]
  · exact hs.of_web (State.latch_line _ _) (State.latch_phase _ _) (State.latch_web _ _)
  · rw [State.appendSegment_eq]
    exact (hs.joined hrun hlength).advanceSeq
  · rw [State.appendSegment_eq]
    refine (hs.evict.joined (s.evict_passes.sameRun.lineState.trans hrun) ?_).advanceSeq
    rw [(WebOnly.evict s).screen 0, (WebOnly.evict s).1]
    exact hlength

/-! ### A drive cycle -/

theorem State.RollsInv.advanceChannel (k : ScreenId) (dw : Int) (hs : s.RollsInv) : (s.advanceChannel k dw).RollsInv := by
  by_cases hground : s.breaksGround k dw
  · have hrun := State.breaksGround_run hground
    rw [State.advanceChannel_of_breaks hground]
    unfold State.keyCrossing
    dsimp only
    generalize hu : (s.modChan 0 (Channel.forward ((s.screen k).chan.r + dw) s.phase.lFab)).withPhase
      { (s.modChan 0 (Channel.forward ((s.screen k).chan.r + dw) s.phase.lFab)).phase with
        highWater := ((s.modChan 0 (Channel.forward ((s.screen k).chan.r + dw) s.phase.lFab)).screen 0).chan.n } = v
    have hweb : v.web = s.web := by rw [← hu, State.withPhase_web, State.modChan_web]
    have hline : v.line = s.line := by rw [← hu, State.withPhase_line, State.modChan_line]
    have hphase : v.phase.stretch = s.phase.stretch ∧ v.phase.lFab = s.phase.lFab := by rw [← hu]; exact ⟨rfl, rfl⟩
    have hlcur : (v.screen 0).chan.lcur = s.phase.lFab := by
      rw [← hu, State.screen_withPhase, State.screen_modChan, if_pos rfl]
      rfl
    have hcross := EngOnly.cross 0 true v
    have hinv : v.RollsInv := hs.congr (by rw [hline]) hphase (by rw [hweb]) (by rw [hweb]) (by rw [hweb])
      (by rw [hweb]; exact fun h => ⟨h, rfl⟩)
    refine State.RollsInv.create (hinv.congr (by rw [hcross.frame]) (by rw [hcross.frame]; exact ⟨rfl, rfl⟩) hcross.bare
      (by rw [hcross.frame]) (by rw [hcross.frame]) (by rw [hcross.frame]; exact fun h => ⟨h, rfl⟩)) ?_ ?_
    · rw [hcross.frame, hweb]; exact hrun
    · rw [hcross.screen 0, hcross.frame, hphase.2]; exact hlcur
  · have hadvance := AdvanceOnly.advanceChannel hground
    exact hs.congr (by rw [hadvance.frame]) (by rw [hadvance.frame]; exact ⟨rfl, rfl⟩) hadvance.bare (by rw [hadvance.frame])
      (by rw [hadvance.frame]) (by rw [hadvance.frame]; exact fun h => ⟨h, rfl⟩)

theorem State.RollsInv.driveCycle (hs : s.RollsInv) : s.driveCycle.RollsInv := by
  have hslewed : s.advancePosition.slewAll.RollsInv := by
    refine hs.of_web ?_ ?_ (by rw [State.slewAll_web, State.advancePosition_web])
    · unfold State.slewAll State.advancePosition
      rw [State.mapScreens_line, State.latchIf_line, State.withPos_line]
    · unfold State.slewAll State.advancePosition
      rw [State.mapScreens_phase, State.latchIf_phase, State.withPos_phase]
  have hadvanced : s.advanced.RollsInv := State.advanced_keeps (fun u k dw hu => hu.advanceChannel k dw) hslewed
  have htests : s.advanced.windowTests.formSetpoints.RollsInv := by
    refine hadvanced.of_web ?_ ?_ (by rw [State.formSetpoints_web, State.windowTests_web]) <;>
      unfold State.formSetpoints State.windowTests
    · rw [State.mapScreens_line, State.mapScreens_line]
    · rw [State.mapScreens_phase, State.mapScreens_phase]
  refine htests.webTests.of_web ?_ ?_ (by rw [State.driveCycle_web])
  · rw [State.driveCycle_eq, State.evalLines_line, State.evalHold_line]
    unfold State.sendFrame
    rw [State.withRing_line]
  · rw [State.driveCycle_eq, State.evalLines_phase, State.evalHold_phase]
    unfold State.sendFrame
    rw [State.withRing_phase]

/-! ### A seam -/

theorem places_seamed (c : Int) (s : State) : places (s.seamed c).web.queue = places s.web.queue := by
  unfold places
  rw [State.seamed, State.withWeb_web, List.map_map]
  refine List.map_congr_left fun g _ => ?_
  unfold Function.comp Segment.seamed Segment.place
  split <;> rfl

/-- The former last roll gives up the records moved (R105, step 3). -/
def loseMoved (moved : List Segment) (id : Nat) (r : Roll) : Roll :=
  match moved with
  | [] => r
  | m :: _ => if r.id = id then r.lose moved.length m.seq else r

theorem seamedRolls_eq {moved : List Segment} {rolls : List Roll} {f0 : Roll} (h : rolls.getLast? = some f0) :
    seamedRolls moved rolls = rolls.map (loseMoved moved f0.id) := by
  unfold seamedRolls loseMoved
  rw [h]
  cases moved with
  | nil => exact (List.map_id _).symm
  | cons m moved => rfl

theorem loseMoved_keepsKey (moved : List Segment) (id : Nat) : KeepsKey (loseMoved moved id) := fun r => by
  unfold loseMoved
  split
  · exact ⟨rfl, rfl⟩
  · split <;> exact ⟨rfl, rfl⟩

theorem loseMoved_left (moved : List Segment) (id : Nat) (r : Roll) :
    (loseMoved moved id r).left = if r.id = id then r.left - moved.length else r.left := by
  unfold loseMoved
  split
  · split <;> rfl
  · split <;> rfl

theorem State.RollsInv.seamPulse (hs : s.RollsInv) : s.seamPulse.RollsInv := by
  have hlines : ∀ u : State, u.RollsInv → u.evalLines.RollsInv := fun u hu =>
    hu.of_web (State.evalLines_line u) (State.evalLines_phase u) (State.evalLines_web u)
  rcases s.seamPulse_cases with ⟨-, h⟩ | ⟨-, -, -, -, h⟩ | ⟨-, hrun, hclose, hroom, h⟩ <;> rw [h]
  · exact hs
  · exact hlines _ (hs.of_web (State.latch_line _ _) (State.latch_phase _ _) (State.latch_web _ _))
  · refine hlines _ ?_
    generalize s.pos.p + s.line.dSeam = c at hclose
    obtain ⟨h1, h2, h3, h4, hfab⟩ := hs.fabric
    obtain ⟨-, -, hlow, -⟩ := stagedRepeat_bounds h1 h2 h3 h4
    obtain ⟨f0, hf0, hseam⟩ := exists_last_of_map (hs.last hrun)
    obtain ⟨init, hinit⟩ : ∃ init, s.web.rolls = init ++ [f0] := ⟨_, (List.dropLast_append_getLast? f0 hf0).symm⟩
    have hfar : ∀ d, f0.seamAt = some d → d + 2 * stagedRepeat s.line.lScr (-2048) ≤ c := by
      intro d hd
      unfold State.seamTooClose at hclose
      rw [← hseam, hd, hfab] at hclose
      simp at hclose
      omega
    have hl := hs.laid
    have hq := hs.onTable
    rw [hinit] at hl hq
    obtain ⟨htable, hqueue⟩ := hl.seam hq (by rw [← hinit]; omega) hfar (loseMoved_keepsKey (movedBy c s.web.queue) f0.id)
      (loseMoved_left _ _)
    have hrolls : (s.seamed c).web.rolls = (init ++ [f0]).map (loseMoved (movedBy c s.web.queue) f0.id)
        ++ [seamRoll s.web.nextRollId c (movedBy c s.web.queue)] := by
      rw [State.seamed, State.withWeb_web, seamedRolls_eq hf0, hinit]
    have hcont : Contiguous (s.seamed c).web.queue := hs.contiguous.congr (places_seamed c s)
    have hlast : ∀ l : List Roll, ∃ r ∈ (l ++ [seamRoll s.web.nextRollId c (movedBy c s.web.queue)]).getLast?,
        r.seamAt = some c := fun l => ⟨_, List.getLast?_concat, rfl⟩
    have hstands : QueueOnTable (stagedRepeat s.line.lScr (-2048)) (stagedRepeat s.line.lScr 2048) (s.seamed c).web.queue
        (s.seamed c).web.rolls → (s.seamed c).RollsInv := by
      intro hq'
      refine ⟨hs.fabric, hcont, (State.rollsFollow_iff _).mpr ⟨?_, fun _ => ?_, hq'⟩⟩ <;> rw [hrolls]
      · exact htable
      · exact hlast _
    rcases s.recordSeam_cases c with ⟨hmoved, h⟩ | ⟨f, hmoved, hf, h⟩ <;> rw [h]
    · refine hstands (hrolls ▸ ?_)
      rcases hqueue with ⟨hqueue, -⟩ | ⟨-, hne, -⟩
      · exact hqueue
      · rcases hmoved with hnil | hnil
        · exact absurd hnil hne
        · rw [hinit] at hnil
          exact absurd hnil (by simp)
    · obtain rfl : f = f0 := Option.some.inj (hf.symm.trans hf0)
      rw [State.nextRollTest_eq, hrolls]
      rcases hqueue with ⟨hqueue, hnone⟩ | ⟨rfl, -, hsome, hqueue⟩
      · rw [show nextRollCloses (s.seamed c).web.queue f.id _ = none from hnone hmoved]
        exact hstands (hrolls ▸ hqueue)
      · rw [show nextRollCloses (s.seamed c).web.queue f.id _ = some _ from hsome]
        dsimp only
        have htail : RollTable (2 * stagedRepeat s.line.lScr (-2048)) (nextId s.web.nextRollId)
            [seamRoll s.web.nextRollId c (movedBy c s.web.queue)] := htable.tail
        have hclosed : ((s.seamed c).closeRoll .nextRoll (loseMoved (movedBy c s.web.queue) f.id f)).web.rolls
            = [seamRoll s.web.nextRollId c (movedBy c s.web.queue)] := by
          have hfilter := filter_id_ne (kept := []) htable.nodup
          rw [List.nil_append, List.nil_append] at hfilter
          rw [State.closeRoll_web, hrolls]
          refine Eq.trans ?_ hfilter
          exact congrArg (List.filter · _) (funext fun x => by
            by_cases hx : x.id = (loseMoved (movedBy c s.web.queue) f.id f).id <;> simp [hx])
        have hframe := WebOnly.closeRoll .nextRoll (loseMoved (movedBy c s.web.queue) f.id f) (s.seamed c)
        refine ⟨?_, ?_, (State.rollsFollow_iff _).mpr ?_⟩
        · rw [hframe.1]; exact hs.fabric
        · rw [State.closeRoll_web]; exact hcont
        · rw [hclosed, State.closeRoll_web, hframe.1]
          exact ⟨htail, fun _ => hlast [], hqueue⟩

/-! ### Every change -/

theorem State.RollsInv.runBegin (hs : s.RollsInv) (hbounded : s.WebBounded) (hreason : s.runBeginReason = none) :
    s.runBegin.RollsInv := by
  obtain ⟨hq, hr⟩ := hbounded.setup (runBeginReason_setup hreason)
  have hnext := hs.next_range
  have hnext' : 1 ≤ nextId s.web.nextRollId ∧ nextId s.web.nextRollId ≤ 65535 := by
    unfold nextId
    split <;> omega
  have hqueue : s.runBegin.web.queue = [] := hq
  have hrolls : s.runBegin.web.rolls = [Roll.opened s.web.nextRollId none] := by
    unfold State.runBegin
    rw [State.withWeb_web, hr]
    rfl
  refine ⟨hs.fabric, by rw [hqueue]; trivial, (State.rollsFollow_iff _).mpr ?_⟩
  rw [hqueue, hrolls]
  refine ⟨⟨⟨rfl, trivial⟩, List.nodup_singleton _, fun id hid => ?_, trivial⟩, fun _ => ⟨_, rfl, rfl⟩,
    ⟨fun _ h => (nomatch h), fun r hr => ?_, fun _ h => (nomatch h)⟩⟩
  · rcases List.mem_cons.mp hid with rfl | hid
    · exact hnext'
    · rw [List.mem_singleton.mp hid]; exact hnext
  · rw [List.mem_singleton.mp hr]
    rfl

theorem State.RollsInv.runDrain (hs : s.RollsInv) : s.runDrain.RollsInv := by
  have hplan := PlanOnly.liftPlanned (s.withWeb { s.web with lineState := .drain })
  have hlift : (s.withWeb { s.web with lineState := .drain }).liftPlanned.RollsInv := by
    refine hs.congr ?_ ?_ ?_ ?_ ?_ fun h => ?_ <;> rw [hplan.1] at *
    · rfl
    · exact ⟨rfl, rfl⟩
    · rfl
    · rfl
    · rfl
    · cases h
  refine hlift.drainIfEmpty.of_web ?_ ?_ ?_ <;> unfold State.runDrain
  · rw [State.evalLines_line, State.evalHold_line]
  · rw [State.evalLines_phase, State.evalHold_phase]
  · rw [State.evalLines_web, State.evalHold_web]

/-- A report rewrites register lists alone. -/
theorem State.report_web (seq : Nat) (k : ScreenId) (v : Int) (s : State) :
    (s.report seq k v).web = { s.web with queue := s.web.queue.map fun g => if g.seq = seq then
      { g with regs := storeEntry (entryFor s.line.tolerance k v) g.regs } else g } := by
  rw [State.report_eq, State.evalLines_web, State.latchIf_web]
  unfold State.storeReport
  rw [State.modChan_web]
  rfl

theorem State.RollsInv.report (seq : Nat) (k : ScreenId) (v : Int) (hs : s.RollsInv) : (s.report seq k v).RollsFollow := by
  have hline : (s.report seq k v).line = s.line := by
    rw [State.report_eq, State.evalLines_line, State.latchIf_line]
    unfold State.storeReport
    rw [State.modChan_line]
    rfl
  refine hs.follow (by rw [hline]) ?_ ?_ ?_ fun h => ?_ <;> rw [State.report_web] at *
  · unfold spots
    dsimp only
    rw [List.map_map]
    refine List.map_congr_left fun g _ => ?_
    unfold Function.comp Segment.spot
    dsimp only
    split <;> rfl
  · exact ⟨h, rfl⟩

theorem Change.rollsFollow (h : Change s t) (hb : s.WebBounded) (hs : s.RollsInv) : t.RollsFollow := by
  have hweb : t.line = s.line → t.web = s.web → t.RollsFollow := fun hline hweb =>
    hs.follow (by rw [hline]) (by rw [hweb]) (by rw [hweb]) (by rw [hweb]) (by rw [hweb]; exact fun h => ⟨h, rfl⟩)
  cases h with
  | same h => exact hweb h.line h.web
  | reset => exact State.rollsFollow_of_empty rfl rfl LineState.noConfusion ⟨le_refl 1, Nat.le_of_ble_eq_true rfl⟩
  | cycle => exact hs.driveCycle.rolls
  | turnaround reply =>
    have hbare := (EngOnly.faultSlots reply s).bare
    rw [State.closeFrame_eq] at hbare
    refine hs.follow (by rw [State.turnaround_frame]) (spots_of_bare ?_) (by rw [State.turnaround_frame])
      (by rw [State.turnaround_frame]) (by rw [State.turnaround_frame]; exact fun h => ⟨h, rfl⟩)
    rw [State.turnaround_eq, State.evalLines_web, State.evalHold_web]
    exact hbare
  | doses => exact hs.follow rfl (spots_of_bare s.addDoses_bare) rfl rfl fun h => ⟨h, rfl⟩
  | seam => exact hs.seamPulse.rolls
  | line h =>
    obtain ⟨hsetup, -⟩ := linePutParse_cases h
    obtain ⟨hq, hr⟩ := hb.setup hsetup
    refine State.rollsFollow_of_empty hq hr (fun h => ?_) hs.next_range
    have hrun : s.web.lineState = .run := h
    rw [hsetup] at hrun
    cases hrun
  | record j => exact hweb (by rw [State.putRecord_frame]) (by rw [State.putRecord_frame])
  | align =>
    refine hweb ?_ ?_ <;> unfold State.alignGroup
    · rw [State.mapScreens_line]
    · rw [State.mapScreens_web]
  | engage => exact hweb (by rw [State.engage_eq]) (by rw [State.engage_eq])
  | lift => exact hweb (by rw [State.lift_eq]) (by rw [State.lift_eq])
  | clear =>
    refine hweb ?_ ?_ <;> unfold State.clear
    · rw [State.evalHold_line, State.modEng_line]
    · rw [State.evalHold_web, State.modEng_web]
  | runBegin h => exact (hs.runBegin hb h).rolls
  | runDrain => exact hs.runDrain.rolls
  | runAbort =>
    refine State.rollsFollow_of_empty ?_ ?_ ?_ ?_ <;> rw [State.runAbort_eq]
    · exact LineState.noConfusion
    · exact hs.next_range
  | report v => exact hs.report _ _ v
  | _ => exact hweb rfl rfl

/-- The four properties that stay together. -/
structure State.Ordered (s : State) : Prop where
  bounded : s.ListsBounded
  channels : s.ChannelsInRange
  queue : s.QueueInOrder
  rolls : s.RollsFollow

theorem Change.ordered (h : Change s t) (hs : s.Ordered) : t.Ordered where
  bounded := h.listsBounded hs.bounded
  channels := h.channelsInRange hs.channels
  queue := h.queueInOrder hs.queue
  rolls := by
    obtain ⟨-, -, hfabric, -⟩ := s.channelsInRange_iff.mp hs.channels
    obtain ⟨hcont, -⟩ := hs.queue
    exact h.rollsFollow (s.listsBounded_iff.mp hs.bounded).2 ⟨hfabric, hcont, hs.rolls⟩

end
end Sys2Proof.Machine

/-! ### The statement -/

open Sys2Proof Sys2Proof.Machine

/-- Settles O60: the bounds are kept change by change; the table follows because a record spans less than the distance of
two seams, so that the queue passes over no roll and a roll that closes is the first. -/
theorem listsStayBounded : Obligations.ListsStayBounded := by
  unfold Obligations.ListsStayBounded
  refine ⟨keptByStep_of_change Change.listsBounded, fun s t hbounded hchannels hqueue hrolls hstep => ?_⟩
  have hordered : KeptByStep State.Ordered := keptByStep_of_change Change.ordered
  exact (hordered s t ⟨hbounded, hchannels, hqueue, hrolls⟩ hstep).rolls

end

section
/-! PROOFS. A creation in full: what it finds room for, the record it appends, the books it posts; and that states which
agree in what it reads make the same of it. -/

namespace Sys2Proof.Machine

/-! ### What a creation makes (R95 to R98) -/

/-- The record that a creation would form on this queue and roll table. -/
def State.segmentOn (s : State) (queue : List Segment) (rolls : List Roll) : Segment :=
  ((s.withQueue queue).withRolls rolls).newSegment

/-- The ledger once the head has been evicted (R97). -/
def State.evictLedger (s : State) : Ledger :=
  match s.web.queue with
  | [] => ⟨s.web.rolls, []⟩
  | g :: rest => (Ledger.leave s.line s.cure .evicted g ⟨s.web.rolls, []⟩).nextRoll rest g.roll

/-- The queue in which a creation finds room. -/
def State.roomQueue (s : State) : List Segment := if 256 ≤ s.web.queue.length then s.web.queue.tail else s.web.queue

/-- The ledger once a creation has found room. -/
def State.roomLedger (s : State) : Ledger := if 256 ≤ s.web.queue.length then s.evictLedger else ⟨s.web.rolls, []⟩

/-- The record of a creation. -/
def State.createdSegment (s : State) : Segment := s.segmentOn s.roomQueue s.roomLedger.rolls

/-- The ledger that a creation leaves. -/
def State.createdLedger (s : State) : Ledger := s.roomLedger.joins s.roomQueue s.createdSegment

/-- The kinds that a creation latches besides those of its reports. -/
def State.createdKinds (s : State) (e : EventKind) : Prop :=
  (256 ≤ s.web.queue.length ∧ e = .segmentEvicted) ∨ (s.web.nextSeq = 4294967295 ∧ e = .seqExhausted)

section
variable {s u : State} {l : Ledger} {kinds : EventKind → Prop}

/-- A record is formed alike in states that differ in the Web Map, the reports and the latched sets alone. -/
theorem State.newSegment_of_web (h : WebOnly s u) (hnext : u.web.nextSeq = s.web.nextSeq) :
    u.newSegment = s.segmentOn u.web.queue u.web.rolls := by
  have hscreen : u.screen 0 = s.screen 0 := h.screen 0
  have heng : u.engState 0 = s.engState 0 := congrArg (fun x => x.eng.state) hscreen
  have hpos : u.pos = s.pos := h.pos
  have hphase : u.phase = s.phase := by rw [h.1]
  have hplanned : u.planned = s.planned := by rw [h.1]
  have hstart : u.newStart = ((s.withQueue u.web.queue).withRolls u.web.rolls).newStart := by
    unfold State.newStart
    rw [hpos, hscreen]
    rfl
  unfold State.segmentOn State.newSegment
  rw [hstart, hscreen, heng, hphase, hplanned, hnext]
  rfl

theorem Books.appendSegment (h : Books s l kinds u) (hnext : u.web.nextSeq = s.web.nextSeq) :
    Books s (l.joins u.web.queue (s.segmentOn u.web.queue l.rolls))
      (fun e => kinds e ∨ (s.web.nextSeq = 4294967295 ∧ e = .seqExhausted)) u.appendSegment := by
  have hjoined := h.joined
  rw [State.newSegment_of_web h.webOnly hnext, h.rolls] at hjoined
  rw [State.appendSegment_eq]
  exact hjoined.advanceSeq.mono fun e => by rw [(Thins.joined u).nextSeq]; exact hnext ▸ Iff.rfl

theorem State.evict_nextSeq (s : State) : s.evict.web.nextSeq = s.web.nextSeq := (Thins.evict s).nextSeq

/-- The books of a creation. -/
theorem Books.create (hexhausted : s.web.exhausted = false) : Books s s.createdLedger s.createdKinds s.create := by
  rcases s.create_cases with ⟨h, -⟩ | ⟨-, hroom, h⟩ | ⟨-, hfull, h⟩
  · rw [hexhausted] at h
    cases h
  · have hqueue : s.roomQueue = s.web.queue := if_neg hroom.not_ge
    have hledger : s.roomLedger = ⟨s.web.rolls, []⟩ := if_neg hroom.not_ge
    unfold State.createdLedger State.createdSegment
    rw [h, hqueue, hledger]
    exact (Books.appendSegment (.opened s) rfl).mono fun e => by simp [State.createdKinds, noKind, hroom]
  · have hqueue : s.roomQueue = s.web.queue.tail := if_pos hfull
    have hledger : s.roomLedger = s.evictLedger := if_pos hfull
    obtain ⟨g, rest, hq⟩ : ∃ g rest, s.web.queue = g :: rest :=
      List.exists_cons_of_ne_nil (by rintro hnil; rw [hnil] at hfull; exact absurd hfull (by decide))
    have hevict := (Books.opened s).evict hq
    have hevicted : s.evictLedger = (Ledger.leave s.line s.cure .evicted g ⟨s.web.rolls, []⟩).nextRoll rest g.roll := by
      unfold State.evictLedger
      rw [hq]
    have happend := hevict.appendSegment s.evict_nextSeq
    rw [State.evict_queue] at happend
    unfold State.createdLedger State.createdSegment
    rw [h, hqueue, hledger, hevicted]
    exact happend.mono fun e => by simp [State.createdKinds, noKind, hfull]

theorem State.create_queue (hexhausted : s.web.exhausted = false) :
    s.create.web.queue = s.roomQueue ++ [s.createdSegment] := by
  rcases s.create_cases with ⟨h, -⟩ | ⟨-, hroom, h⟩ | ⟨-, hfull, h⟩
  · rw [hexhausted] at h
    cases h
  · have hqueue : s.roomQueue = s.web.queue := if_neg hroom.not_ge
    have hledger : s.roomLedger = ⟨s.web.rolls, []⟩ := if_neg hroom.not_ge
    unfold State.createdSegment
    rw [h, State.appendSegment_queue, hqueue, hledger]
    rfl
  · have hqueue : s.roomQueue = s.web.queue.tail := if_pos hfull
    have hledger : s.roomLedger = s.evictLedger := if_pos hfull
    obtain ⟨g, rest, hq⟩ : ∃ g rest, s.web.queue = g :: rest :=
      List.exists_cons_of_ne_nil (by rintro hnil; rw [hnil] at hfull; exact absurd hfull (by decide))
    have hrolls : s.evict.web.rolls = s.evictLedger.rolls := by
      unfold State.evictLedger
      rw [((Books.opened s).evict hq).rolls, hq]
    unfold State.createdSegment
    rw [h, State.appendSegment_queue, hqueue, hledger, State.newSegment_of_web (.evict s) s.evict_nextSeq, hrolls,
      State.evict_queue]

/-- The next seq after a creation (R98). -/
theorem State.create_seq (hexhausted : s.web.exhausted = false) :
    (s.web.nextSeq = 4294967295 ∧ s.create.web.nextSeq = 4294967295 ∧ s.create.web.exhausted = true)
    ∨ (s.web.nextSeq ≠ 4294967295 ∧ s.create.web.nextSeq = s.web.nextSeq + 1 ∧ s.create.web.exhausted = false) := by
  rcases s.create_cases with ⟨h, -⟩ | ⟨-, -, h⟩ | ⟨-, -, h⟩
  · rw [hexhausted] at h
    cases h
  · rw [h, ← hexhausted]
    have := s.appendSegment_seq
    rwa [hexhausted] at this ⊢
  · have := s.evict.appendSegment_seq
    rw [s.evict_nextSeq, (Thins.evict s).exhausted, hexhausted] at this
    rwa [h]

/-- The Web Map after a creation. -/
theorem State.create_web (hexhausted : s.web.exhausted = false) : s.create.web = { s.web with
    queue := s.roomQueue ++ [s.createdSegment], rolls := s.createdLedger.rolls
    nextSeq := if s.web.nextSeq = 4294967295 then 4294967295 else s.web.nextSeq + 1
    exhausted := decide (s.web.nextSeq = 4294967295) } := by
  have hqueue := State.create_queue hexhausted
  have hrolls := (Books.create hexhausted).rolls
  obtain ⟨hline, hid, hseam⟩ := s.create_sameRun
  have hseq : s.create.web.nextSeq = (if s.web.nextSeq = 4294967295 then 4294967295 else s.web.nextSeq + 1)
      ∧ s.create.web.exhausted = decide (s.web.nextSeq = 4294967295) := by
    rcases State.create_seq hexhausted with ⟨h, h1, h2⟩ | ⟨h, h1, h2⟩
    · rw [if_pos h, h1, h2, decide_eq_true h]; exact ⟨rfl, rfl⟩
    · rw [if_neg h, h1, h2, decide_eq_false h]; exact ⟨rfl, rfl⟩
  obtain ⟨hnext, hex⟩ := hseq
  rw [← hqueue, ← hrolls, ← hnext, ← hex]
  dsimp only
  rw [← hline, ← hid, ← hseam]

end

/-! ### States that make the same of a creation -/

/-- Two states agree in what a creation reads. -/
structure SameCreation (b c : State) : Prop where
  web : c.web = b.web
  reports : c.reports = b.reports
  line : c.line = b.line
  cure : c.cure = b.cure
  stretch : c.phase.stretch = b.phase.stretch
  planned : c.planned = b.planned
  p : c.pos.p = b.pos.p
  r : (c.screen 0).chan.r = (b.screen 0).chan.r
  lcur : (c.screen 0).chan.lcur = (b.screen 0).chan.lcur
  printing : c.engState 0 = .printing ↔ b.engState 0 = .printing
  roles : ∀ n, (c.port n).role = (b.port n).role

section
variable {b c : State}

theorem SameCreation.room (h : SameCreation b c) : c.roomQueue = b.roomQueue ∧ c.roomLedger = b.roomLedger := by
  unfold State.roomQueue State.roomLedger State.evictLedger
  rw [h.web, h.line, h.cure]
  exact ⟨rfl, rfl⟩

theorem SameCreation.segment (h : SameCreation b c) : c.createdSegment = b.createdSegment := by
  have hseg : ∀ queue rolls, c.segmentOn queue rolls = b.segmentOn queue rolls := by
    intro queue rolls
    have hstart : ((c.withQueue queue).withRolls rolls).newStart = ((b.withQueue queue).withRolls rolls).newStart := by
      unfold State.newStart
      change (match queue.getLast? with
        | some g => g.start + g.length
        | none => c.pos.p - (c.screen 0).chan.r) = match queue.getLast? with
        | some g => g.start + g.length
        | none => b.pos.p - (b.screen 0).chan.r
      rw [h.p, h.r]
    have hprinted : (if ((c.withQueue queue).withRolls rolls).engState 0 = .printing then addTo 0 0 else 0)
        = if ((b.withQueue queue).withRolls rolls).engState 0 = .printing then addTo 0 0 else 0 :=
      if_congr h.printing rfl rfl
    have hlength : (((c.withQueue queue).withRolls rolls).screen 0).chan.lcur
        = (((b.withQueue queue).withRolls rolls).screen 0).chan.lcur := h.lcur
    have hnext : ((c.withQueue queue).withRolls rolls).web.nextSeq = ((b.withQueue queue).withRolls rolls).web.nextSeq := by
      change c.web.nextSeq = b.web.nextSeq
      rw [h.web]
    have hstretch : ((c.withQueue queue).withRolls rolls).phase.stretch
        = ((b.withQueue queue).withRolls rolls).phase.stretch := h.stretch
    have hplanned : ((c.withQueue queue).withRolls rolls).planned = ((b.withQueue queue).withRolls rolls).planned :=
      h.planned
    unfold State.segmentOn State.newSegment
    dsimp only
    rw [hstart, hprinted, hlength, hnext, hstretch, hplanned]
    rfl
  unfold State.createdSegment
  rw [hseg, h.room.1, h.room.2]

theorem SameCreation.ledger (h : SameCreation b c) : c.createdLedger = b.createdLedger := by
  unfold State.createdLedger
  rw [h.room.1, h.room.2, h.segment]

/-- A creation makes the same of the Web Map, the reports and the latched sets in both. -/
theorem SameCreation.create (h : SameCreation b c) :
    c.create.web = b.create.web ∧ c.create.reports = b.create.reports ∧ ∃ kinds : EventKind → Prop,
      (∀ n e, hasKind (b.create.port n).latched e ↔ hasKind (b.port n).latched e ∨ ((b.port n).role.sees e ∧ kinds e))
      ∧ ∀ n e, hasKind (c.create.port n).latched e ↔ hasKind (c.port n).latched e ∨ ((b.port n).role.sees e ∧ kinds e) := by
  cases hexhausted : b.web.exhausted with
  | true =>
    have hb : b.create = b.latch .seqExhausted := if_pos hexhausted
    have hc : c.create = c.latch .seqExhausted := if_pos (h.web ▸ hexhausted)
    rw [hb, hc, State.latch_web, State.latch_web, State.latch_reports, State.latch_reports]
    refine ⟨h.web, h.reports, fun e => e = .seqExhausted, fun n e => ?_, fun n e => ?_⟩ <;> rw [State.hasKind_latch]
    · rw [and_comm]
    · rw [and_comm, h.roles]
  | false =>
    have hexhausted' : c.web.exhausted = false := h.web ▸ hexhausted
    have hbooks := Books.create hexhausted
    have hbooks' := Books.create hexhausted'
    have hkinds : c.createdKinds = b.createdKinds := by
      unfold State.createdKinds
      rw [h.web]
    rw [h.ledger, hkinds] at hbooks'
    refine ⟨?_, ?_, _, hbooks.latched, fun n e => ?_⟩
    · rw [State.create_web hexhausted, State.create_web hexhausted', h.web, h.room.1, h.segment, h.ledger]
    · rw [hbooks.reports, hbooks'.reports, h.reports]
    · rw [hbooks'.latched, h.roles, h.reports]

end
end Sys2Proof.Machine
end

section
/-! PROOFS. Steps and RESETN: a step, the state after reset, and what the assertion and the release of RESETN leave. -/

namespace Sys2Proof.Machine

/-! ### The roles at the release of RESETN (R175, R176) -/

theorem strapRole_line (x : BitVec 2) : strapRole x = .line ↔ x = 0#2 := by revert x; decide
theorem strapRole_oven (x : BitVec 2) : strapRole x = .oven ↔ x = 1#2 := by revert x; decide
theorem strapRole_inspect (x : BitVec 2) : strapRole x = .inspect ↔ x = 2#2 := by revert x; decide

/-- A port acts as LINE, or as OVEN, exactly when it is the lowest-numbered one strapped to that role (R176). -/
theorem actingRole_owned {f : PortId → Role} {n : PortId} {r : Role} (howned : r = .line ∨ r = .oven) :
    actingRole f n = r ↔ f n = r ∧ ∀ m < n, f m ≠ r := by
  refine ⟨fun h => actingRole_owner h howned, fun ⟨hn, hbelow⟩ => ?_⟩
  have hlowest := any_below_eq_false.mpr hbelow
  unfold actingRole
  rcases howned with rfl | rfl <;> rw [hn] <;> simp only [hlowest, Bool.false_eq_true, if_false]

theorem actingRole_inspect {f : PortId → Role} {n : PortId} : actingRole f n = .inspect ↔ f n = .inspect := by
  unfold actingRole
  cases hn : f n with
  | line | oven => split_ifs <;> simp
  | inspect | observe => simp

/-- The acting roles of ports strapped to these levels. -/
theorem actingRole_strapped {strap : PortId → BitVec 2} {f : PortId → Role} (hf : ∀ n, f n = strapRole (strap n))
    (n : PortId) :
    (actingRole f n = .line ↔ strap n = 0#2 ∧ ∀ m, m < n → strap m ≠ 0#2)
    ∧ (actingRole f n = .oven ↔ strap n = 1#2 ∧ ∀ m, m < n → strap m ≠ 1#2)
    ∧ (actingRole f n = .inspect ↔ strap n = 2#2) := by
  rw [actingRole_owned (.inl rfl), actingRole_owned (.inr rfl), actingRole_inspect]
  simp only [hf, strapRole_line, strapRole_oven, strapRole_inspect, ne_eq, and_self]

/-! ### The state after reset -/

@[simp] theorem State.screen_reset (k : ScreenId) : State.reset.screen k = .reset := by
  simp [State.screen, State.reset]

@[simp] theorem State.port_reset (n : PortId) : State.reset.port n = .reset (Role.atReset n) := by
  simp [State.port, State.reset]

@[simp] theorem State.engState_reset (k : ScreenId) : State.reset.engState k = .absent := by
  unfold State.engState
  rw [State.screen_reset]
  rfl

theorem reset_holdFollows : State.reset.HoldFollows := by
  simp [State.HoldFollows, State.reset, Ring.reset, inSet]

theorem reset_linesFollow : State.reset.LinesFollow := by
  intro n
  simp [Port.reset]

theorem reset_portsWithinRoles : State.reset.PortsWithinRoles := by
  refine ⟨fun n e => ?_, ?_⟩
  · simp [Port.reset]
  · simp only [State.port_reset, Port.reset]
    decide

theorem reset_positionLawful : State.reset.PositionLawful := by
  unfold State.PositionLawful
  decide

theorem reset_screensLawful : State.reset.ScreensLawful := by
  refine ⟨fun k => ?_, fun ⟨k, hk⟩ => ?_, ?_, ?_⟩
  · rw [State.screen_reset]
    unfold Screen.Lawful
    decide
  · rw [State.screen_reset] at hk
    exact nomatch hk
  · rw [State.screen_reset]; rfl
  · rw [State.screen_reset]; rfl

theorem reset_channelsInRange : State.reset.ChannelsInRange := by
  refine ⟨by decide, fun k => ?_, by decide, by decide, by decide, by decide, by decide, fun g hg => (nomatch hg)⟩
  rw [State.screen_reset]
  exact ⟨by decide, by decide, by unfold lengthInRange; decide, by decide, by decide, by decide, by decide, by decide⟩

theorem reset_plannedFollows : State.reset.PlannedFollows := by
  refine ⟨fun _ => rfl, fun k => ?_⟩
  rw [State.engState_reset]
  simp

theorem reset_queueInOrder : State.reset.QueueInOrder :=
  ⟨trivial, .nil, fun q hq => (nomatch hq), by decide, by decide⟩

theorem reset_listsBounded : State.reset.ListsBounded :=
  ⟨by decide, by decide, by decide, .nil, fun e he => (nomatch he), fun g hg => (nomatch hg), fun _ => ⟨rfl, rfl⟩⟩

theorem reset_rollsFollow : State.reset.RollsFollow :=
  ⟨trivial, .nil, by decide, trivial, fun h => (nomatch h), fun g hg => (nomatch hg), fun r hr => (nomatch hr),
    fun g hg => (nomatch hg)⟩

end Sys2Proof.Machine

/-! ### The statements -/

open Sys2Proof Sys2Proof.Machine

/-- Settles O1: with a command at the front, a step is that command on the queue's rest. -/
theorem stepRunsFrontCommand : Obligations.StepRunsFrontCommand := fun _ _ _ => rfl

/-- Settles O2: each property is read off the reset values. -/
theorem resetStateHasEveryInvariant : Obligations.ResetStateHasEveryInvariant :=
  ⟨reset_holdFollows, reset_linesFollow, reset_portsWithinRoles, reset_positionLawful, reset_screensLawful,
    reset_channelsInRange, reset_plannedFollows, reset_queueInOrder, reset_listsBounded, reset_rollsFollow⟩

/-- Settles O3: every port is abandoned, and the ring loses its frame and its timer. -/
theorem resetAssertAbandonsEveryPort : Obligations.ResetAssertAbandonsEveryPort :=
  fun s => ⟨_, rfl, rfl, fun n => by simp [Port.abandon]⟩

/-- Settles O4: every register holds its reset value, and the acting roles are those of `actingRole_strapped`. -/
theorem resetReleaseGivesResetValues : Obligations.ResetReleaseGivesResetValues := by
  intro a b c d s
  refine ⟨_, rfl, rfl, rfl, rfl, fun k => ?_, rfl, rfl, rfl, rfl, rfl, rfl, rfl, rfl, rfl, rfl, rfl, rfl, rfl, rfl,
    fun n => ?_, fun n strap h0 h1 h2 h3 => ?_⟩
  · exact State.screen_reset k
  · simp [State.port, Port.reset, Reply.none]
  · simp only [State.port, Fin.getElem_fin, Vector.getElem_ofFn, Port.reset, Fin.eta]
    refine actingRole_strapped (fun n => ?_) n
    fin_cases n
    exacts [congrArg strapRole h0.symm, congrArg strapRole h1.symm, congrArg strapRole h2.symm, congrArg strapRole h3.symm]

end

section
/-! PROOFS. Client ports: what the release of PnSEL leaves of the held reply, the receive states word by word, a whole
frame clocked in, the held reply clocked out, and the refused request. -/

namespace Sys2Proof.Machine

section
variable {s : State} {n : PortId} {q : Port}

/-! ### The release of PnSEL (R164, R166) -/

/-- Where a frame ends on PnSEL in mid-frame: a count or more of it has been received. -/
def RxState.midFrame (x : RxState) : Prop := x = .count ∨ x = .payload ∨ x = .check ∨ x = .discard

/-- Where the release of PnSEL finishes no frame. -/
def Port.keepsReply (q : Port) (bits : Fin 16) : Prop := q.rx = .idle ∨ q.rx = .done ∨ (q.rx = .header ∧ bits = 0)

theorem Port.release_held_kept {bits : Fin 16} (part : Word) (h : q.keepsReply bits) :
    (q.release bits part).held = q.held := by
  unfold Port.release
  rcases h with h | h | ⟨h, hbits⟩
  · rw [h]
  · rw [h]
  · rw [h]
    dsimp only
    rw [if_pos hbits]

theorem Port.release_held_midFrame (bits : Fin 16) (part : Word) (h : q.rx.midFrame) :
    (q.release bits part).held =
      { kind := q.kind.getD 0, tag := q.tag.getD 0, status := .frame, index := 0, words := [] } := by
  unfold Port.release Port.finishFrame
  rcases h with h | h | h | h <;> rw [h]

theorem Port.release_held_header {bits : Fin 16} (part : Word) (h : q.rx = .header) (hbits : bits ≠ 0) :
    (q.release bits part).held =
      { kind := if bits.val < 8 then 0 else part.extractLsb' 8 8, tag := 0, status := .frame, index := 0,
        words := [] } := by
  unfold Port.release Port.finishFrame
  rw [h]
  dsimp only
  rw [if_neg hbits]
  by_cases h8 : 8 ≤ bits.val
  · rw [if_pos h8, if_neg (by omega)]
    rfl
  · rw [if_neg h8, if_pos (by omega)]
    rfl

/-- A change of port n alone, as the statements give it. -/
theorem State.modPort_frame (s : State) (n : PortId) (f : Port → Port) :
    s.modPort n f = { s with ports := (s.modPort n f).ports } ∧ (∀ m, m ≠ n → (s.modPort n f).port m = s.port m)
      ∧ (s.modPort n f).port n = f (s.port n) :=
  ⟨rfl, fun m hm => by rw [State.port_modPort, if_neg hm], by rw [State.port_modPort, if_pos rfl]⟩

theorem State.releaseSelect_running (bits : Fin 16) (part : Word) (hrun : s.inReset = false) :
    s.releaseSelect n bits part = s.modPort n fun q => q.release bits part := by
  unfold State.releaseSelect
  simp only [hrun, Bool.false_eq_true, if_false]

theorem State.releaseSelect_inReset (bits : Fin 16) (part : Word) (hreset : s.inReset = true) :
    s.releaseSelect n bits part = s.modPort n fun q => { q with sel := false } := by
  unfold State.releaseSelect
  simp only [hreset, if_true]

/-! ### A whole frame received -/

/-- What a port holds of a whole frame of at most 64 payload words, but for its reply: PnSEL is asserted, the frame is
done, and nothing is fetched. -/
theorem Port.received_done (kind tag : Byte) {payload : List Word} (h : payload.length ≤ 64) :
    (q.received kind tag payload).rx = .done ∧ (q.received kind tag payload).sel = true
      ∧ (q.received kind tag payload).held = (if q.sel then q.release 0 0 else q).held := by
  unfold Port.received
  rw [if_pos h]
  exact ⟨rfl, rfl, rfl⟩

/-- FETCH on a port out of reset. -/
theorem exec_fetch {tag : Byte} {payload : List Word} (hears : s.hearsAny payload) :
    exec (.fetch n tag payload) s =
      .next (s.modPort n fun q => { q.received fetchCode tag payload with fetch := some 0 }) := by
  obtain ⟨hrun, hlen⟩ := hears
  have hwhole : wholeFrame n fetchCode tag payload s
      = (s.receiveFrame n fetchCode tag payload).modPort n fun q => { q with fetch := some 0 } := by
    unfold wholeFrame frameGood
    rw [hrun, if_neg (by decide), if_pos hlen, if_pos rfl]
  change Host.Outcome.next (wholeFrame n fetchCode tag payload s) = _
  rw [hwhole]
  unfold State.receiveFrame
  rw [State.modPort_modPort]

/-! ### Words in a receive state (R164) -/

theorem State.completeWord_noCheck (w : Word) (hrun : s.inReset = false) (hrx : (s.port n).rx ≠ .check) :
    s.completeWord n w = s.modPort n (Port.word w) := by
  unfold State.completeWord
  rw [hrun, if_neg (by decide), if_neg hrx]

theorem State.completeWord_bad {w : Word} (hrun : s.inReset = false) (hrx : (s.port n).rx = .check)
    (hw : w ≠ (s.port n).check) :
    s.completeWord n w = s.modPort n fun q => { q with dataOut := 0 }.finishFrame .done := by
  unfold State.completeWord
  rw [hrun, if_neg (by decide), if_pos hrx, if_neg hw]

theorem State.completeWord_good (hrun : s.inReset = false) (hrx : (s.port n).rx = .check) :
    s.completeWord n (s.port n).check =
      frameGood n ((s.port n).kind.getD 0) ((s.port n).tag.getD 0) (s.port n).payload
        (s.modPort n fun q => { q with rx := .done, dataOut := 0 }) := by
  unfold State.completeWord
  rw [hrun, if_neg (by decide), if_pos hrx, if_pos rfl]

theorem Port.word_idle (w : Word) (h : q.rx = .idle) : q.word w = q := by
  unfold Port.word; rw [h]

theorem Port.word_header (w : Word) (h : q.rx = .header) :
    q.word w = { q with
      kind := some (w.extractLsb' 8 8), tag := some (w.extractLsb' 0 8), check := crc16Word q.check w, rx := .count,
      dataOut := 0 } := by
  unfold Port.word; rw [h]

theorem Port.word_count (w : Word) (h : q.rx = .count) :
    q.word w = { q with
      count := w, check := crc16Word q.check w, dataOut := 0
      rx := if w = 0 then .check else if w.toNat ≤ 64 then .payload else .discard } := by
  unfold Port.word; rw [h]

theorem Port.word_payload (w : Word) (h : q.rx = .payload) :
    q.word w = { q with
      payload := q.payload ++ [w], check := crc16Word q.check w, dataOut := 0
      rx := if q.count.toNat ≤ q.payload.length + 1 then .check else .payload } := by
  unfold Port.word; rw [h]

theorem Port.word_discard (w : Word) (h : q.rx = .discard) : q.word w = { q with dataOut := 0 } := by
  unfold Port.word; rw [h]

theorem Port.word_done (w : Word) (h : q.rx = .done) : q.word w = q.shiftOut := by
  unfold Port.word; rw [h]

theorem Port.shiftOut_eq (q : Port) :
    q.shiftOut = { q with fetch := q.shiftOut.fetch, dataOut := q.shiftOut.dataOut } := by
  unfold Port.shiftOut
  split
  · rfl
  · split <;> rfl

theorem ofNat_high (w : Word) : BitVec.ofNat 8 (w.toNat / 256) = w.extractLsb' 8 8 := by
  apply BitVec.eq_of_toNat_eq
  simp [Nat.shiftRight_eq_div_pow]

theorem ofNat_low (w : Word) : BitVec.ofNat 8 w.toNat = w.extractLsb' 0 8 := by
  apply BitVec.eq_of_toNat_eq
  simp

/-! ### A frame clocked in (R164, R165) -/

/-- A port in the middle of a frame whose count and these payload words it has received. -/
def Port.filled (kind tag : Byte) (count : Word) (got : List Word) (q : Port) : Port :=
  { q with
    sel := true, rx := if count.toNat ≤ got.length then .check else .payload, kind := some kind, tag := some tag,
    count := count, payload := got, check := crc16 (headerWord kind tag :: count :: got), fetch := none, dataOut := 0 }

theorem Port.filled_kind (kind tag : Byte) (count : Word) (got : List Word) (q : Port) :
    (q.filled kind tag count got).kind = some kind := rfl
theorem Port.filled_tag (kind tag : Byte) (count : Word) (got : List Word) (q : Port) :
    (q.filled kind tag count got).tag = some tag := rfl
theorem Port.filled_payload (kind tag : Byte) (count : Word) (got : List Word) (q : Port) :
    (q.filled kind tag count got).payload = got := rfl
theorem Port.filled_check (kind tag : Byte) (count : Word) (got : List Word) (q : Port) :
    (q.filled kind tag count got).check = crc16 (headerWord kind tag :: count :: got) := by
  unfold Port.filled
  dsimp only

theorem crc16_append (a b : List Word) : crc16 (a ++ b) = b.foldl crc16Word (crc16 a) := List.foldl_append

theorem headerWord_high (kind tag : Byte) : (headerWord kind tag).extractLsb' 8 8 = kind := by
  unfold headerWord
  exact BitVec.extractLsb'_append_eq_left

theorem headerWord_low (kind tag : Byte) : (headerWord kind tag).extractLsb' 0 8 = tag := by
  unfold headerWord
  exact BitVec.extractLsb'_append_eq_right

theorem Port.word_filled {kind tag : Byte} {count w : Word} {got : List Word} (h : got.length < count.toNat) :
    (q.filled kind tag count got).word w = q.filled kind tag count (got ++ [w]) := by
  have hrx : (q.filled kind tag count got).rx = .payload := if_neg (by omega)
  rw [Port.word_payload w hrx]
  unfold Port.filled
  rw [← List.cons_append, ← List.cons_append, crc16_append, List.length_append, List.foldl_cons, List.foldl_nil,
    List.length_singleton]

theorem runCommands_cons {c : Instr} {cs : List Instr} {t : State} (h : exec c s = .next t) :
    runCommands (c :: cs) s = runCommands cs t := by
  rw [runCommands, h]

theorem runCommands_word {w : Word} {cs : List Instr} {f : Port → Port} (hrun : s.inReset = false)
    (hrx : (f (s.port n)).rx ≠ .check) :
    runCommands (.wordCompleted n w :: cs) (s.modPort n f) = runCommands cs (s.modPort n fun q => (f q).word w) := by
  have hrx' : ((s.modPort n f).port n).rx ≠ .check := by rwa [State.port_modPort, if_pos rfl]
  have hword : (s.modPort n f).completeWord n w = s.modPort n fun q => (f q).word w := by
    rw [State.completeWord_noCheck w (by exact hrun) hrx', State.modPort_modPort]
  exact runCommands_cons (congrArg _ hword)

/-- The payload words of a frame, one after another. -/
theorem runCommands_payload {kind tag : Byte} {count : Word} {cs : List Instr} (hrun : s.inReset = false) :
    ∀ (ws got : List Word), got.length + ws.length ≤ count.toNat →
      runCommands (ws.map (Instr.wordCompleted n) ++ cs) (s.modPort n (Port.filled kind tag count got))
        = runCommands cs (s.modPort n (Port.filled kind tag count (got ++ ws)))
  | [], got, _ => by rw [List.append_nil]; rfl
  | w :: ws, got, h => by
    rw [List.length_cons] at h
    have hrx : (Port.filled kind tag count got (s.port n)).rx ≠ .check := by
      change (if count.toNat ≤ got.length then RxState.check else RxState.payload) ≠ .check
      rw [if_neg (by omega)]
      decide
    rw [List.map_cons, List.cons_append, runCommands_word hrun hrx]
    simp only [Port.word_filled (show got.length < count.toNat by omega)]
    rw [runCommands_payload hrun ws (got ++ [w]) (by rw [List.length_append, List.length_singleton]; omega),
      List.append_assoc, List.singleton_append]

/-- A port at the assertion of PnSEL in IDLE (R164). -/
def Port.opened (q : Port) : Port :=
  { q with sel := true, rx := .header, kind := none, tag := none, count := 0, payload := [], check := 0xFFFF,
           fetch := none }

theorem State.modPort_congr {f g : Port → Port} (h : f (s.port n) = g (s.port n)) : s.modPort n f = s.modPort n g := by
  unfold State.modPort
  rw [h]

theorem exec_selectAsserted_opens (hrun : s.inReset = false) (hrx : (s.port n).rx = .idle)
    (hsel : (s.port n).sel = false) : exec (.selectAsserted n) s = .next (s.modPort n Port.opened) := by
  refine congrArg Host.Outcome.next (State.modPort_congr ?_)
  simp only [hrun, hrx, hsel, ne_eq, Bool.false_eq_true, not_true, or_self, if_false]
  rfl

theorem exec_selectAsserted_stays (h : s.inReset = true ∨ (s.port n).rx ≠ .idle ∨ (s.port n).sel = true) :
    exec (.selectAsserted n) s = .next (s.modPort n fun q => { q with sel := true }) := by
  refine congrArg Host.Outcome.next (State.modPort_congr ?_)
  by_cases hfirst : s.inReset = true ∨ (s.port n).rx ≠ .idle
  · exact if_pos hfirst
  · have hsel : (s.port n).sel = true := by tauto
    rw [if_neg hfirst, if_pos hsel, ← hsel]

/-- A port that has received the header word and the count of a frame. -/
theorem Port.opened_words {kind tag : Byte} {count : Word} (h : count.toNat ≤ 64) :
    (q.opened.word (headerWord kind tag)).word count = q.filled kind tag count [] := by
  rw [Port.word_count _ (by rw [Port.word_header _ rfl]), Port.word_header _ rfl, headerWord_high, headerWord_low]
  have hrx : (if count = 0 then RxState.check else if count.toNat ≤ 64 then .payload else .discard)
      = if count.toNat ≤ 0 then .check else .payload := by
    by_cases hzero : count = 0
    · rw [if_pos hzero, hzero]
      rfl
    · have hpos : ¬ count.toNat ≤ 0 := fun h0 => hzero (BitVec.eq_of_toNat_eq (Nat.le_zero.mp h0))
      rw [if_neg hzero, if_pos h, if_neg hpos]
  have hcheck : crc16Word (crc16Word 0xFFFF (headerWord kind tag)) count = crc16 [headerWord kind tag, count] := by
    unfold crc16
    rw [List.foldl_cons, List.foldl_cons, List.foldl_nil]
  unfold Port.filled Port.opened
  dsimp only
  rw [hrx, hcheck, List.length_nil]

/-- A frame clocked in up to its check word. -/
theorem runCommands_body {kind tag : Byte} {payload : List Word} {cs : List Instr} (hears : s.hearsAny payload)
    (hrx : (s.port n).rx = .idle) (hsel : (s.port n).sel = false) :
    runCommands (.selectAsserted n :: ((requestBody kind tag payload).map (Instr.wordCompleted n) ++ cs)) s
      = runCommands cs (s.modPort n (Port.filled kind tag (BitVec.ofNat 16 payload.length) payload)) := by
  obtain ⟨hrun, hlen⟩ := hears
  have hcount : (BitVec.ofNat 16 payload.length).toNat = payload.length := by
    rw [BitVec.toNat_ofNat, Nat.mod_eq_of_lt (by omega)]
  have hheader : (Port.opened (s.port n)).rx ≠ .check := nofun
  have hword : ((Port.opened (s.port n)).word (headerWord kind tag)).rx ≠ .check := by
    rw [Port.word_header _ rfl]
    exact nofun
  rw [runCommands_cons (exec_selectAsserted_opens hrun hrx hsel)]
  unfold requestBody
  rw [List.map_cons, List.map_cons, List.cons_append, List.cons_append, runCommands_word hrun hheader,
    runCommands_word hrun hword]
  simp only [Port.opened_words (hcount.le.trans hlen)]
  rw [runCommands_payload hrun payload [] (by rw [hcount, List.length_nil, Nat.zero_add]), List.nil_append]

/-- A frame clocked in whole is a good frame received whole. -/
theorem runCommands_frame {kind tag : Byte} {payload : List Word} (hears : s.hearsAny payload)
    (hrx : (s.port n).rx = .idle) (hsel : (s.port n).sel = false) :
    runCommands (.selectAsserted n :: (requestFrameWords kind tag payload).map (Instr.wordCompleted n)) s
      = .next (frameGood n kind tag payload (s.receiveFrame n kind tag payload)) := by
  have hcount : (BitVec.ofNat 16 payload.length).toNat = payload.length := by
    rw [BitVec.toNat_ofNat, Nat.mod_eq_of_lt (by omega)]
  have hport := (s.modPort_frame n (Port.filled kind tag (BitVec.ofNat 16 payload.length) payload)).2.2
  have hcheck : ((s.modPort n (Port.filled kind tag (BitVec.ofNat 16 payload.length) payload)).port n).rx = .check := by
    rw [hport]
    exact if_pos hcount.le
  have hword := State.completeWord_good (n := n) (s := s.modPort n (Port.filled kind tag
    (BitVec.ofNat 16 payload.length) payload)) hears.1 hcheck
  rw [hport, State.modPort_modPort, Port.filled_kind, Port.filled_tag, Port.filled_payload, Port.filled_check,
    Option.getD_some, Option.getD_some] at hword
  have hreceived : (s.modPort n fun q => { q.filled kind tag (BitVec.ofNat 16 payload.length) payload with
      rx := .done, dataOut := 0 }) = s.receiveFrame n kind tag payload :=
    State.modPort_congr (by
      rw [Port.received_idle hrx kind tag hears.2]
      unfold Port.filled requestBody
      dsimp only)
  rw [hreceived] at hword
  unfold requestFrameWords
  rw [List.map_append, runCommands_body hears hrx hsel, List.map_cons, List.map_nil]
  unfold requestBody
  have hexec : exec (.wordCompleted n (crc16 (headerWord kind tag :: BitVec.ofNat 16 payload.length :: payload)))
      (s.modPort n (Port.filled kind tag (BitVec.ofNat 16 payload.length) payload))
      = .next (frameGood n kind tag payload (s.receiveFrame n kind tag payload)) := congrArg Host.Outcome.next hword
  rw [runCommands_cons hexec, runCommands]

/-- The command that stands for a frame of this kind. -/
theorem exec_wholeFrame {kind tag : Byte} {payload : List Word} {c : Instr} (hears : s.hearsAny payload)
    (hc : (∃ k : Kind, k.code = kind ∧ c = k.command n tag payload) ∨ (kind = 0x01 ∧ c = .fetch n tag payload)
      ∨ ((∀ k : Kind, k.code ≠ kind) ∧ kind ≠ 0x01 ∧ c = .kindRefused n kind tag payload)) :
    exec c s = .next (frameGood n kind tag payload (s.receiveFrame n kind tag payload)) := by
  obtain ⟨hrun, hlen⟩ := hears
  have hwhole : wholeFrame n kind tag payload s = frameGood n kind tag payload (s.receiveFrame n kind tag payload) := by
    unfold wholeFrame
    rw [hrun, if_neg (by decide), if_pos hlen]
  rcases hc with ⟨k, rfl, rfl⟩ | ⟨rfl, rfl⟩ | ⟨-, -, rfl⟩
  · rw [exec_command]
    unfold requestFrame frameGood
    rw [hrun, if_neg (by decide), if_pos hlen, if_neg (code_ne_fetch k), ofCode_code]
  · exact congrArg Host.Outcome.next hwhole
  · exact congrArg Host.Outcome.next hwhole

/-! ### The held reply clocked out (R167) -/

/-- A word shifted out of a held reply, of which i have gone before. -/
theorem Port.shiftOut_of_fetch {i : Nat} (h : q.fetch = some i) :
    q.shiftOut = { q with
      dataOut := (q.held.frame[i]?).getD 0, fetch := some (if i < q.held.frame.length then i + 1 else i) } := by
  unfold Port.shiftOut
  rw [h]
  by_cases hi : i < q.held.frame.length
  · simp [hi]
  · simp [hi, ← h]

/-- The words of the held reply's frame from the i-th on, clocked out one by one. -/
theorem runCommands_fetched :
    ∀ (ws : List Word) (w : Word) (s : State) (i : Nat), s.inReset = false → (s.port n).rx = .done →
      (s.port n).fetch = some i → i ≤ (s.port n).held.frame.length →
      ∃ t : State, runCommands ((ws ++ [w]).map (Instr.wordCompleted n)) s = .next t
        ∧ (t.port n).held = (s.port n).held
        ∧ (t.port n).dataOut = ((s.port n).held.frame[i + ws.length]?).getD 0 := by
  intro ws
  induction ws with
  | nil =>
    intro w s i hrun hrx hfetch _
    have hword := State.completeWord_noCheck (n := n) w hrun (by rw [hrx]; decide)
    have hexec : exec (.wordCompleted n w) s = .next (s.modPort n (Port.word w)) := congrArg Host.Outcome.next hword
    refine ⟨_, runCommands_cons hexec, ?_⟩
    rw [State.port_modPort, if_pos rfl, Port.word_done w hrx, Port.shiftOut_of_fetch hfetch]
    exact ⟨rfl, rfl⟩
  | cons v ws ih =>
    intro w s i hrun hrx hfetch hi
    have hword := State.completeWord_noCheck (n := n) v hrun (by rw [hrx]; decide)
    have hexec : exec (.wordCompleted n v) s = .next (s.modPort n (Port.word v)) := congrArg Host.Outcome.next hword
    have hport : (s.modPort n (Port.word v)).port n = _ :=
      (s.modPort_frame n (Port.word v)).2.2.trans ((Port.word_done v hrx).trans (Port.shiftOut_of_fetch hfetch))
    rw [List.cons_append, List.map_cons, runCommands_cons hexec]
    obtain ⟨t, ht, hheld, hout⟩ := ih w (s.modPort n (Port.word v))
      (if i < (s.port n).held.frame.length then i + 1 else i) hrun (by rw [hport]; exact hrx) (by rw [hport])
      (by rw [hport]; dsimp only; split_ifs <;> omega)
    rw [hport] at hheld hout
    dsimp only at hheld hout
    refine ⟨t, ht, hheld, hout.trans ?_⟩
    rw [List.length_cons]
    by_cases hlt : i < (s.port n).held.frame.length
    · rw [if_pos hlt, Nat.add_right_comm, Nat.add_assoc]
    · rw [if_neg hlt, List.getElem?_eq_none (by omega), List.getElem?_eq_none (by omega)]

theorem Reply.frame_length (r : Reply) : r.frame.length = r.words.length + 4 := by
  unfold Reply.frame Reply.body
  simp

/-! ### Refused requests (R168) -/

/-- A block that answers with another code than OK leaves the state as it was. -/
def KeepsWhenRefused (s : State) (taken : State × Answer) : Prop := taken.2.code ≠ .ok → taken.1 = s

theorem KeepsWhenRefused.unchanged (a : Answer) : KeepsWhenRefused s (s, a) := fun _ => rfl

theorem KeepsWhenRefused.accepted (t : State) (words : List Word) : KeepsWhenRefused s (t, accept words) :=
  fun h => absurd rfl h

theorem taker_keepsWhenRefused {k : Kind} (n : PortId) (payload : List Word) (s : State) (hput : k ≠ .screenPut)
    (htune : k ≠ .screenTune) : KeepsWhenRefused s (taker k n payload s) := by
  cases k with
  | screenPut => exact absurd rfl hput
  | screenTune => exact absurd rfl htune
  | segmentGet | webWhere | zoneContents | rollGet => exact .unchanged _
  | linePut | screenGet | stretchSet | groupAlign | engage | lift | screenClear | zonePut | curePut | zoneSample
  | attnEnable | statusGet | attnTake =>
    dsimp only [taker, takeLinePut, takeScreenGet, takeStretchSet, takeGroupAlign, takeEngage, takeLift, takeScreenClear,
      takeZonePut, takeCurePut, takeZoneSample, takeAttnEnable, takeStatusGet, takeAttnTake]
    split
    · exact .unchanged _
    · exact .accepted _ _
  | regReport | faultTake | reportTake | runBegin | runDrain | runAbort =>
    dsimp only [taker, takeRegReport, takeFaultTake, takeReportTake, takeRunBegin, takeRunDrain, takeRunAbort]
    split
    · exact .unchanged _
    · split
      · exact .unchanged _
      · exact .accepted _ _

/-- A refused request leaves the state that its port's answer makes. -/
theorem exec_refused {k : Kind} {t : State} {tag : Byte} {payload : List Word} (hears : s.hearsAny payload)
    (hput : k ≠ .screenPut) (htune : k ≠ .screenTune) (hexec : exec (k.command n tag payload) s = .next t)
    (hrefused : (t.port n).held.status ≠ .ok) :
    t = s.answered n k.code tag payload (t.port n).held.status (t.port n).held.index (t.port n).held.words := by
  have hanswered : ∀ a : Answer, t = s.answered n k.code tag payload a.code a.index a.words →
      t = s.answered n k.code tag payload (t.port n).held.status (t.port n).held.index (t.port n).held.words := by
    rintro a rfl
    rw [State.port_answered, if_pos rfl]
  cases hpermits : permits k (s.port n).role with
  | false =>
    rw [exec_role hears hpermits] at hexec
    exact hanswered (refuse .role 0) (Host.Outcome.next.inj hexec).symm
  | true =>
    have htaken := taker_keepsWhenRefused n payload (s.receiveFrame n k.code tag payload) hput htune
    rw [exec_command, requestFrame_taken hears hpermits] at hexec
    have ht := Host.Outcome.next.inj hexec
    rw [← ht, State.port_holdReply, if_pos rfl] at hrefused
    rw [htaken hrefused] at ht
    exact hanswered _ ht.symm

end

end Sys2Proof.Machine

/-! ### The statements -/

open Sys2Proof Sys2Proof.Machine

/-- Settles O22: FETCH sets the pointer on the port that the frame's receipt leaves, whose reply a release may have
replaced. -/
theorem fetchPointsAtHeldReply : Obligations.FetchPointsAtHeldReply := by
  intro s n tag payload hears
  obtain ⟨hframe, hothers, hport⟩ := s.modPort_frame n fun q => { q.received fetchCode tag payload with fetch := some 0 }
  obtain ⟨hrx, hsel, hheld⟩ := (s.port n).received_done fetchCode tag hears.2
  refine ⟨_, exec_fetch hears, hframe, hothers, ?_⟩
  rw [hport]
  refine ⟨rfl, hrx, hsel, fun hkept => ?_, fun hasserted hmid => ?_, by simp, by simp, by simp, by simp⟩
  · refine hheld.trans ?_
    split_ifs with hasserted
    · refine Port.release_held_kept 0 ?_
      unfold Port.keepsReply
      rcases hkept with h | h | h | h
      · rw [hasserted] at h
        exact nomatch h
      · exact .inl h
      · exact .inr (.inl h)
      · exact .inr (.inr ⟨h, rfl⟩)
    · rfl
  · refine hheld.trans ?_
    rw [if_pos hasserted]
    exact Port.release_held_midFrame 0 0 hmid

/-- Settles O23: the assertion in IDLE opens a frame, and the release is `Port.release`. -/
theorem selectOpensAndClosesFrames : Obligations.SelectOpensAndClosesFrames := by
  intro s n
  constructor
  · by_cases hstays : s.inReset = true ∨ (s.port n).rx ≠ .idle ∨ (s.port n).sel = true
    · obtain ⟨hframe, hothers, hport⟩ := s.modPort_frame n fun q => { q with sel := true }
      refine ⟨_, exec_selectAsserted_stays hstays, hframe, hothers, fun hrun hrx hsel => ?_, fun _ => hport⟩
      simp [hrun, hrx, hsel] at hstays
    · obtain ⟨hframe, hothers, hport⟩ := s.modPort_frame n Port.opened
      push Not at hstays
      obtain ⟨hrun, hrx, hsel⟩ := hstays
      have hopens := exec_selectAsserted_opens (Bool.eq_false_iff.mpr hrun) hrx (Bool.eq_false_iff.mpr hsel)
      refine ⟨_, hopens, hframe, hothers, fun _ _ _ => hport, fun h => ?_⟩
      rcases h with h | h | h
      · exact absurd h hrun
      · exact absurd hrx h
      · exact absurd h hsel
  · intro bits part
    by_cases hreset : s.inReset = true
    ·
      obtain ⟨hframe, hothers, hport⟩ := s.modPort_frame n fun q => { q with sel := false }
      have hexec : exec (.selectReleased n bits part) s = .next (s.modPort n fun q => { q with sel := false }) :=
        congrArg Host.Outcome.next (State.releaseSelect_inReset bits part hreset)
      exact ⟨_, hexec, hframe, hothers, fun _ => hport, fun hrun => absurd (hreset.symm.trans hrun) nofun⟩
    · have hrun := Bool.eq_false_iff.mpr hreset
      obtain ⟨hframe, hothers, hport⟩ := s.modPort_frame n fun q => q.release bits part
      have hexec : exec (.selectReleased n bits part) s = .next (s.modPort n fun q => q.release bits part) :=
        congrArg Host.Outcome.next (State.releaseSelect_running bits part hrun)
      refine ⟨_, hexec, hframe, hothers, fun h => absurd h hreset, fun _ => ?_⟩
      rw [hport]
      exact ⟨Port.release_sel _ _ _, Port.release_rx _ _ _, fun _ => Port.release_fetch _ _ _, Port.release_role _ _ _,
        Port.release_latched _ _ _, Port.release_enabled _ _ _, Port.release_line _ _ _, Port.release_held_kept part,
        fun hmid => by rw [Port.release_held_midFrame bits part hmid]⟩

/-- Settles O21: a release in mid-frame and a check word that differs both finish with FRAME. -/
theorem brokenFrameIsAnsweredFrame : Obligations.BrokenFrameIsAnsweredFrame := by
  intro s n hrun
  refine ⟨fun how => by cases how <;> exact ⟨_, rfl⟩, fun bits part => ?_, fun w hrx hw => ?_⟩
  · obtain ⟨hframe, hothers, hport⟩ := s.modPort_frame n fun q => q.release bits part
    have hexec : exec (.frameBroken n (.released bits part)) s = .next (s.modPort n fun q => q.release bits part) :=
      congrArg Host.Outcome.next (State.releaseSelect_running bits part hrun)
    refine ⟨_, hexec, hframe, hothers, ?_⟩
    rw [hport]
    exact ⟨Port.release_sel _ _ _, Port.release_rx _ _ _, Port.release_held_midFrame bits part,
      Port.release_held_header part, Port.release_held_kept part⟩
  · obtain ⟨hframe, hothers, hport⟩ := s.modPort_frame n fun q => { q with dataOut := 0 }.finishFrame .done
    have hexec : exec (.frameBroken n (.checkWord w)) s
        = .next (s.modPort n fun q => { q with dataOut := 0 }.finishFrame .done) :=
      congrArg Host.Outcome.next (State.completeWord_bad hrun hrx hw)
    exact ⟨_, hexec, hframe, hothers, hport⟩

/-- Settles O24: each receive state's case of `Port.word`. -/
theorem wordsFillTheReceiveRegisters : Obligations.WordsFillTheReceiveRegisters := by
  intro s n w hrun hrx
  obtain ⟨hframe, hothers, hport⟩ := s.modPort_frame n (Port.word w)
  have hexec : exec (.wordCompleted n w) s = .next (s.modPort n (Port.word w)) :=
    congrArg Host.Outcome.next (State.completeWord_noCheck w hrun hrx)
  refine ⟨_, hexec, hframe, hothers, ?_⟩
  rw [hport]
  refine ⟨Port.word_idle w, fun h => ?_, fun h => ?_, fun h => ?_, Port.word_discard w, fun h => ?_⟩
  · rw [Port.word_header w h, ofNat_high, ofNat_low]
  · have hzero : w = 0 ↔ w.toNat = 0 := ⟨fun hw => by rw [hw]; rfl, fun hw => BitVec.eq_of_toNat_eq hw⟩
    rw [Port.word_count w h]
    simp only [hzero]
  · rw [Port.word_payload w h]
    refine ⟨rfl, rfl, ?_, rfl⟩
    dsimp only
    split_ifs with hfull
    · simp [hfull]
    · simp [hfull]
  · rw [Port.word_done w h]
    exact Port.shiftOut_eq _

/-- Settles O25: the words clocked in leave the port as the whole frame does, and its check word takes the frame. -/
theorem frameWordByWordIsTheCommand : Obligations.FrameWordByWordIsTheCommand := by
  intro s n kind tag payload c hears hrx hsel hc
  rw [runCommands_frame hears hrx hsel, exec_wholeFrame hears hc]

/-- Settles O26, by induction on the words clocked. -/
theorem fetchShiftsOutHeldReply : Obligations.FetchShiftsOutHeldReply := by
  intro s n ws w hrun hrx hfetch
  obtain ⟨t, ht, hheld, hout⟩ := runCommands_fetched ws w s 0 hrun hrx hfetch (Nat.zero_le _)
  rw [Nat.zero_add] at hout
  exact ⟨t, ht, hheld, hout, Reply.frame_length _⟩

/-- Settles O28: a block that refuses leaves the state as it was. -/
theorem refusedRequestsChangeNothing : Obligations.RefusedRequestsChangeNothing :=
  fun _ _ _ _ _ _ hears hput htune hexec hrefused => exec_refused hears hput htune hexec hrefused

end

section
/-! PROOFS. The requests that read and the takes: SEGMENT.GET and WEB.WHERE, REG.REPORT's checks, ZONE.CONTENTS and
ROLL.GET, SCREEN.GET, and FAULT.TAKE and REPORT.TAKE. -/

namespace Sys2Proof.Machine

section
variable {s : State} {n : PortId} {tag : Byte} {payload : List Word} {f g h : Field} {rest : List Field}

/-! ### Payloads of one field within a range (R173) -/

section
variable {low high : Nat}

theorem oneField_of_nil (hf : fields payload = []) : oneField low high payload = .error (tooFew payload) := by
  simp [oneField, hf]

theorem oneField_of_outside (hf : fields payload = f :: rest) (hout : f.value < low ∨ high < f.value) :
    oneField low high payload = .error (naming f) := by
  simp [oneField, hf, hout]

theorem oneField_of_second (hf : fields payload = f :: g :: rest) (hlow : low ≤ f.value) (hhigh : f.value ≤ high) :
    oneField low high payload = .error (naming g) := by
  simp [oneField, hf, Nat.not_lt.mpr hlow, Nat.not_lt.mpr hhigh]

theorem oneField_of_value (hf : fields payload = [f]) (hlow : low ≤ f.value) (hhigh : f.value ≤ high) :
    oneField low high payload = .ok f.value := by
  simp [oneField, hf, Nat.not_lt.mpr hlow, Nat.not_lt.mpr hhigh]

end

/-! ### SEGMENT.GET and WEB.WHERE (R108, R109) -/

theorem segmentGetParse_nil (hf : fields payload = []) : segmentGetParse payload = .error (tooFew payload) := by
  simp [segmentGetParse, hf]

theorem segmentGetParse_seq (hf : fields payload = f :: rest) (hout : f.value = 0 ∨ 4294967295 < f.value) :
    segmentGetParse payload = .error (naming f) := by
  simp [segmentGetParse, hf, hout]

theorem segmentGetParse_part (hf : fields payload = f :: g :: rest) (hlow : 1 ≤ f.value) (hhigh : f.value ≤ 4294967295)
    (hg : 1 < g.value) : segmentGetParse payload = .error (naming g) := by
  have hseq : ¬ (f.value = 0 ∨ 4294967295 < f.value) := by omega
  simp [segmentGetParse, hf, hseq, hg]

theorem segmentGetParse_third (hf : fields payload = f :: g :: h :: rest) (hlow : 1 ≤ f.value)
    (hhigh : f.value ≤ 4294967295) (hg : g.value ≤ 1) : segmentGetParse payload = .error (naming h) := by
  have hseq : ¬ (f.value = 0 ∨ 4294967295 < f.value) := by omega
  simp [segmentGetParse, hf, hseq, Nat.not_lt.mpr hg]

theorem segmentGetParse_ok {parts : List Field} (hf : fields payload = f :: parts) (hlow : 1 ≤ f.value)
    (hhigh : f.value ≤ 4294967295) (hparts : parts = [] ∨ ∃ p, parts = [p] ∧ p.value ≤ 1) :
    segmentGetParse payload = .ok (f.value, (parts.head?.map Field.value).getD 0) := by
  have hseq : ¬ (f.value = 0 ∨ 4294967295 < f.value) := by omega
  rcases hparts with rfl | ⟨p, rfl, hp⟩
  · simp [segmentGetParse, hf, hseq]
  · simp [segmentGetParse, hf, hseq, Nat.not_lt.mpr hp]

theorem segmentGetAnswer_refused {a : Answer} (hparse : segmentGetParse payload = .error a) :
    segmentGetAnswer payload s = a := by
  simp [segmentGetAnswer, hparse]

theorem segmentGetAnswer_gone {seq part : Nat} (hparse : segmentGetParse payload = .ok (seq, part))
    (hgone : ∀ q ∈ s.web.queue, q.seq ≠ seq) : segmentGetAnswer payload s = refuse .gone 0 := by
  have hnone : segmentOf s.web.queue seq = none := by simpa [segmentOf] using hgone
  simp [segmentGetAnswer, hparse, hnone]

theorem segmentGetAnswer_ok {seq part : Nat} {q : Segment} (hparse : segmentGetParse payload = .ok (seq, part))
    (hq : segmentOf s.web.queue seq = some q) :
    segmentGetAnswer payload s = accept (if part = 0 then s.segmentWords q else q.regWords) := by
  simp [segmentGetAnswer, hparse, hq]

theorem webWhereAnswer_refused {a : Answer} (hparse : oneSigned payload = .error a) : webWhereAnswer payload s = a := by
  simp [webWhereAnswer, hparse]

theorem webWhereAnswer_empty {v : Int} (hparse : oneSigned payload = .ok v)
    (hempty : containing s.web.queue (s.pos.p - v - 1) = none) : webWhereAnswer payload s = refuse .empty 0 := by
  simp [webWhereAnswer, hparse, hempty]

theorem webWhereAnswer_ok {v : Int} {q : Segment} (hparse : oneSigned payload = .ok v)
    (hq : containing s.web.queue (s.pos.p - v - 1) = some q) :
    webWhereAnswer payload s = accept (words2 q.seq ++ words1 q.roll ++ words1 (s.stage q).toCode
      ++ words2 (s.pos.p - v - 1 - q.start) ++ words2 q.length ++ words3 s.pos.p) := by
  simp [webWhereAnswer, hparse, hq]

/-- The code of the stage of a record (R101, R183). -/
theorem State.stage_toCode (s : State) (q : Segment) :
    (s.stage q).toCode =
      if s.pos.p - q.start < s.line.xInsp then 0 else if s.pos.p - q.start ≤ s.oven.b0 then 1 else 2 := by
  unfold State.stage
  dsimp only
  split_ifs <;> rfl

theorem exec_segmentGet {a : Answer} (hears : s.hearsAny payload) (ha : segmentGetAnswer payload s = a) :
    exec (.segmentGet n tag payload) s = .next (s.answered n 0x43 tag payload a.code a.index a.words) :=
  have hreceived : segmentGetAnswer payload (s.receiveFrame n 0x43 tag payload) = a := ha
  exec_unchanged (k := .segmentGet) hears rfl (congrArg (Prod.mk _) hreceived)

theorem exec_webWhere {a : Answer} (hears : s.hearsAny payload) (ha : webWhereAnswer payload s = a) :
    exec (.webWhere n tag payload) s = .next (s.answered n 0x44 tag payload a.code a.index a.words) :=
  have hreceived : webWhereAnswer payload (s.receiveFrame n 0x44 tag payload) = a := ha
  exec_unchanged (k := .webWhere) hears rfl (congrArg (Prod.mk _) hreceived)

/-! ### REG.REPORT's checks (R113, R114) -/

theorem regReportParse_tooFew (hf : (fields payload).length < 3) :
    regReportParse payload = .error (tooFew payload) := by
  unfold regReportParse
  rcases hfields : fields payload with _ | ⟨f, _ | ⟨g, _ | ⟨h, rest⟩⟩⟩
  · rfl
  · rfl
  · rfl
  · rw [hfields] at hf
    simp only [List.length_cons] at hf
    omega

theorem regReportParse_fourth {x : Field} (hf : (fields payload)[3]? = some x) :
    regReportParse payload = .error (naming x) := by
  unfold regReportParse
  rcases hfields : fields payload with _ | ⟨f, _ | ⟨g, _ | ⟨h, _ | ⟨y, rest⟩⟩⟩⟩ <;> rw [hfields] at hf <;> simp_all

theorem regReportParse_seq (hf : fields payload = [f, g, h]) (hout : f.value = 0 ∨ 4294967295 < f.value) :
    regReportParse payload = .error (naming f) := by
  simp [regReportParse, hf, hout]

theorem regReportParse_screen (hf : fields payload = [f, g, h]) (hlow : 1 ≤ f.value) (hhigh : f.value ≤ 4294967295)
    (hg : 24 ≤ g.value) : regReportParse payload = .error (naming g) := by
  unfold regReportParse
  rw [hf]
  dsimp only
  rw [if_neg (by omega), dif_neg (by omega)]

section
variable {r : RegReport} {q : Segment}

theorem regReportAccept_gone (hgone : ∀ q ∈ s.web.queue, q.seq ≠ r.seq) :
    regReportAccept r s = .error (refuse .gone 0) := by
  have hnone : segmentOf s.web.queue r.seq = none := by simpa [segmentOf] using hgone
  simp [regReportAccept, hnone]

theorem regReportAccept_early (hq : segmentOf s.web.queue r.seq = some q) (hcamera : q.camera = false) :
    regReportAccept r s = .error (refuse .early 0) := by
  simp [regReportAccept, hq, hcamera]

theorem regReportAccept_reference (hq : segmentOf s.web.queue r.seq = some q) (hcamera : q.camera = true)
    (hkey : r.screen = 0) : regReportAccept r s = .error (refuse .reference 0) := by
  simp [regReportAccept, hq, hcamera, hkey]

theorem regReportAccept_unprinted (hq : segmentOf s.web.queue r.seq = some q) (hcamera : q.camera = true)
    (hkey : r.screen ≠ 0) (hprinted : inSet q.printed r.screen = false) :
    regReportAccept r s = .error (refuse .unprinted 0) := by
  simp [regReportAccept, hq, hcamera, hkey, hprinted]

theorem regReportAccept_absent (hq : segmentOf s.web.queue r.seq = some q) (hcamera : q.camera = true)
    (hkey : r.screen ≠ 0) (hprinted : inSet q.printed r.screen = true) (habsent : (s.screen r.screen).present = false) :
    regReportAccept r s = .error (refuse .range r.screenIndex) := by
  simp [regReportAccept, hq, hcamera, hkey, hprinted, habsent]

theorem exec_regReport_malformed {a : Answer} (hears : s.hears n .inspect payload)
    (hparse : regReportParse payload = .error a) :
    exec (.regReport n tag payload) s = .next (s.answered n 0x50 tag payload a.code a.index a.words) :=
  exec_unchanged (k := .regReport) ⟨hears.1, hears.2.2⟩ (beq_iff_eq.mpr hears.2.1)
    (by simp [taker, takeRegReport, hparse])

theorem exec_regReport_refused {a : Answer} (hears : s.hears n .inspect payload) (hparse : regReportParse payload = .ok r)
    (haccept : regReportAccept r s = .error a) :
    exec (.regReport n tag payload) s = .next (s.answered n 0x50 tag payload a.code a.index a.words) :=
  have hreceived : regReportAccept r (s.receiveFrame n 0x50 tag payload) = .error a := haccept
  exec_unchanged (k := .regReport) ⟨hears.1, hears.2.2⟩ (beq_iff_eq.mpr hears.2.1)
    (by simp only [taker, takeRegReport, hparse]; rw [show Kind.regReport.code = 0x50 from rfl, hreceived])

theorem exec_regReport_accepted (hears : s.hears n .inspect payload) (hparse : regReportParse payload = .ok r)
    (haccept : regReportAccept r s = .ok q) :
    ∃ t, exec (.regReport n tag payload) s = .next t ∧ (t.port n).held.status = .ok := by
  have hreceived : regReportAccept r (s.receiveFrame n Kind.regReport.code tag payload) = .ok q := haccept
  have htaken := takeRegReport_ok n hparse hreceived rfl
  have hpermits : permits .regReport (s.port n).role = true := beq_iff_eq.mpr hears.2.1
  refine ⟨_, (exec_command .regReport n tag payload s).trans
    (congrArg _ (requestFrame_taken ⟨hears.1, hears.2.2⟩ hpermits)), ?_⟩
  rw [State.port_holdReply, if_pos rfl]
  dsimp only [taker]
  rw [htaken]
  rfl

end

/-! ### ZONE.CONTENTS and ROLL.GET (R146, R160) -/

/-- A zone of the table with its lower bound: B_0 for the first, the upper bound of the one before it for the others. -/
theorem zoneSpans_getElem? : ∀ (zones : List Zone) (b0 : Int) (i : Nat) (z : Zone), zones[i]? = some z →
    ∃ low, (zoneSpans b0 zones)[i]? = some (low, z) ∧ (i = 0 → low = b0)
      ∧ ∀ y, 0 < i → zones[i - 1]? = some y → low = y.zEnd
  | z' :: zs, b0, 0, z, hz => ⟨b0, by rw [zoneSpans]; simpa using hz, fun _ => rfl, fun _ hi => (nomatch hi)⟩
  | z' :: zs, b0, i + 1, z, hz => by
    obtain ⟨low, hlow, hfirst, hlater⟩ := zoneSpans_getElem? zs z'.zEnd i z (by simpa using hz)
    refine ⟨low, by rw [zoneSpans]; simpa using hlow, fun hi => (nomatch hi), fun y _ hy => ?_⟩
    rw [Nat.add_sub_cancel] at hy
    cases i with
    | zero =>
      rw [List.getElem?_cons_zero, Option.some.injEq] at hy
      rw [hfirst rfl, hy]
    | succ i => exact hlater y (Nat.succ_pos i) (by simpa using hy)

theorem zoneContentsAnswer_refused {a : Answer} (hparse : oneField 1 s.oven.zones.length payload = .error a) :
    zoneContentsAnswer payload s = a := by
  simp [zoneContentsAnswer, hparse]

theorem zoneContentsAnswer_ok {i : Nat} {low : Int} {z : Zone}
    (hparse : oneField 1 s.oven.zones.length payload = .ok (i + 1)) (hspan : s.oven.spans[i]? = some (low, z)) :
    zoneContentsAnswer payload s = accept (s.zoneWords (i + 1) low z) := by
  simp [zoneContentsAnswer, hparse, hspan]

/-- The snapshot of a zone, from the queued records inside it. -/
theorem State.zoneWords_eq (s : State) (index : Nat) (low : Int) (z : Zone) (inside : List Segment)
    (hinside : inside = s.web.queue.filter fun g => decide (0 < overlap s.pos.p g low z.zEnd)) :
    s.zoneWords index low z =
      words1 index ++ words2 low ++ words2 z.zEnd ++ words1 z.weight ++ words1 z.temp ++ words1 z.age
        ++ words1 z.freshness.toCode ++ words1 (z.rate s.cure.tBase) ++ words3 s.pos.p ++ words1 inside.length
        ++ (inside.take 16).flatMap fun g =>
          words2 g.seq ++ words2 (overlap s.pos.p g low z.zEnd) ++ words2 g.dose ++ words1 g.peak := by
  have hoverlaps : ((s.web.queue.map fun g => (overlap s.pos.p g low z.zEnd, g)).filter fun og => decide (0 < og.1))
      = inside.map fun g => (overlap s.pos.p g low z.zEnd, g) := by
    rw [List.filter_map, hinside]
    rfl
  unfold State.zoneWords
  dsimp only
  rw [hoverlaps, List.length_map, ← List.map_take, List.flatMap_map, Zone.excess_eq_rate]
  rfl

theorem permits_zoneContents (r : Role) : permits .zoneContents r = true ↔ r ≠ .inspect := by
  cases r <;> decide

theorem exec_zoneContents {a : Answer} (hears : s.hearsAny payload) (hrole : (s.port n).role ≠ .inspect)
    (ha : zoneContentsAnswer payload s = a) :
    exec (.zoneContents n tag payload) s = .next (s.answered n 0x63 tag payload a.code a.index a.words) :=
  have hreceived : zoneContentsAnswer payload (s.receiveFrame n 0x63 tag payload) = a := ha
  exec_unchanged (k := .zoneContents) hears ((permits_zoneContents _).mpr hrole) (congrArg (Prod.mk _) hreceived)

theorem seamWords_eq {seam : Roll → List Word} (hnone : ∀ r, r.seamAt = none → seam r = [0xFFFF, 0xFFFF, 0xFFFF])
    (hsome : ∀ r c, r.seamAt = some c → seam r = words3 c) (r : Roll) : seamWords r.seamAt = seam r := by
  cases hseam : r.seamAt with
  | none => exact (hnone r hseam).symm
  | some c => exact (hsome r c hseam).symm

theorem rollGetAnswer_list (hf : fields payload = []) :
    rollGetAnswer payload s = accept (words1 s.web.rolls.length ++ s.web.rolls.flatMap Roll.listWords) := by
  simp [rollGetAnswer, hf]

theorem rollGetAnswer_refused {a : Answer} (hf : fields payload = f :: rest)
    (hparse : oneField 1 65535 payload = .error a) : rollGetAnswer payload s = a := by
  simp [rollGetAnswer, hf, hparse]

theorem rollGetAnswer_gone {id : Nat} (hf : fields payload = f :: rest) (hparse : oneField 1 65535 payload = .ok id)
    (hgone : ∀ r ∈ s.web.rolls, r.id ≠ id) : rollGetAnswer payload s = refuse .gone 0 := by
  have hnone : (s.web.rolls.find? fun r => r.id == id) = none := by simpa using hgone
  simp [rollGetAnswer, hf, hparse, hnone]

theorem rollGetAnswer_ok {id : Nat} {r : Roll} (hf : fields payload = f :: rest)
    (hparse : oneField 1 65535 payload = .ok id) (hr : (s.web.rolls.find? fun r => r.id == id) = some r) :
    rollGetAnswer payload s = accept r.words := by
  simp [rollGetAnswer, hf, hparse, hr]

theorem exec_rollGet {a : Answer} (hears : s.hearsAny payload) (ha : rollGetAnswer payload s = a) :
    exec (.rollGet n tag payload) s = .next (s.answered n 0x71 tag payload a.code a.index a.words) :=
  have hreceived : rollGetAnswer payload (s.receiveFrame n 0x71 tag payload) = a := ha
  exec_unchanged (k := .rollGet) hears rfl (congrArg (Prod.mk _) hreceived)

/-! ### SCREEN.GET (R30) -/

/-- The words of SCREEN.GET, its group words being given. -/
def State.screenWords (s : State) (k : ScreenId) (group : List Word) : List Word :=
  words1 k.val ++ (s.screen k).tableWords ++ group ++ s.engWords k ++ s.chanWords k ++ (s.screen k).ringWords

theorem effTrim_absent {t : Vector Screen 24} {k : ScreenId} (h : t[k].present = false) : effTrim t k = 0 := by
  unfold effTrim
  rw [if_pos (.inr h)]

theorem State.screenWords_eq (s : State) (k : ScreenId) (middle : List Word) {x : Screen} (hx : x = s.screen k) :
    s.screenWords k middle =
      words1 k.val ++ words1 (if x.present then 1 else 0) ++ words1 x.kind.toCode ++ words2 x.dist ++ words1 x.limit
        ++ words1 (if x.ext then 1 else 0) ++ words1 x.tuning.lead ++ words1 x.tuning.slew ++ words1 x.tuning.gain
        ++ words1 x.tuning.deadband ++ words1 x.tuning.stepLimit ++ middle ++ words1 x.eng.state.toCode
        ++ words1 (causeCode x.eng.cause) ++ words1 (if inSet s.planned k then 1 else 0) ++ words2 x.eng.startSeq
        ++ words2 x.eng.stopSeq ++ words1 (if x.eng.window then 1 else 0) ++ words1 x.chan.target
        ++ words1 x.chan.applied ++ words1 (if x.present then effTrim s.screens k else 0) ++ words2 x.chan.r
        ++ words2 x.chan.lcur ++ words2 x.chan.gear ++ words2 x.chan.n
        ++ words1 (if x.present then x.chan.setpoint else 0) ++ words2 x.chan.lastCorrected ++ words1 x.miss
        ++ (match x.last with | some r => words1 r.state.toCode ++ [r.phase] | none => [0, 0]) := by
  subst hx
  have htrim : (if (s.screen k).present then effTrim s.screens k else 0) = effTrim s.screens k := by
    split_ifs with hpresent
    · rfl
    · exact (effTrim_absent (Bool.eq_false_iff.mpr hpresent)).symm
  have hring : (s.screen k).ringWords = words1 (s.screen k).miss ++
      (match (s.screen k).last with | some r => words1 r.state.toCode ++ [r.phase] | none => [0, 0]) := by
    unfold Screen.ringWords
    cases (s.screen k).last with
    | none => rfl
    | some r => exact List.append_assoc _ _ _
  unfold State.screenWords Screen.tableWords State.engWords State.chanWords
  rw [hring, htrim]
  simp only [flagWord_eq, List.append_assoc]

theorem exec_screenGet_grouped {k a : ScreenId} (hears : s.hearsAny payload) (hparse : oneScreen payload = .ok k)
    (ha : anchorOf s.screens k = some a) :
    exec (.screenGet n tag payload) s = .next (s.answered n 0x22 tag payload .ok 0
      (s.screenWords k (words1 a.val ++ flagWord (s.screen a).ext ++ flagWord (s.screen a).aligned))) := by
  refine exec_unchanged (k := .screenGet) (a := accept _) hears rfl ?_
  have hgroup : (s.receiveFrame n 0x22 tag payload).groupWords k
      = (s.receiveFrame n 0x22 tag payload,
          words1 a.val ++ flagWord (s.screen a).ext ++ flagWord (s.screen a).aligned) := by
    unfold State.groupWords
    rw [State.receiveFrame_screens, ha]
    rfl
  dsimp only [taker, takeScreenGet, Kind.code]
  rw [hparse]
  dsimp only
  rw [hgroup]
  rfl

theorem exec_screenGet_ungrouped {k : ScreenId} (hears : s.hearsAny payload) (hparse : oneScreen payload = .ok k)
    (ha : anchorOf s.screens k = none) :
    exec (.screenGet n tag payload) s = .next ((s.withFreeIndex (s.freeIndex + 2)).answered n 0x22 tag payload .ok 0
      (s.screenWords k [0xFFFF, Config.freeWord s.freeIndex, Config.freeWord (s.freeIndex + 1)])) := by
  refine exec_changed (k := .screenGet) (t := s.withFreeIndex (s.freeIndex + 2)) (a := accept _) hears rfl ?_
  have hgroup : (s.receiveFrame n 0x22 tag payload).groupWords k
      = ((s.withFreeIndex (s.freeIndex + 2)).receiveFrame n 0x22 tag payload,
          [0xFFFF, Config.freeWord s.freeIndex, Config.freeWord (s.freeIndex + 1)]) := by
    unfold State.groupWords
    rw [State.receiveFrame_screens, ha]
    rfl
  dsimp only [taker, takeScreenGet, Kind.code]
  rw [hparse]
  dsimp only
  rw [hgroup]
  rfl

/-! ### FAULT.TAKE and REPORT.TAKE (R81, R159) -/

theorem exec_faultTake_range (hears : s.hears n .line payload) (hf : fields payload = f :: rest) :
    exec (.faultTake n tag payload) s = .next (s.answered n 0x38 tag payload .range f.index []) :=
  exec_unchanged (k := .faultTake) (a := naming f) ⟨hears.1, hears.2.2⟩ (beq_iff_eq.mpr hears.2.1)
    (by simp [taker, takeFaultTake, noFields_of_field hf])

theorem exec_reportTake_range (hears : s.hears n .line payload) (hf : fields payload = f :: rest) :
    exec (.reportTake n tag payload) s = .next (s.answered n 0x70 tag payload .range f.index []) :=
  exec_unchanged (k := .reportTake) (a := naming f) ⟨hears.1, hears.2.2⟩ (beq_iff_eq.mpr hears.2.1)
    (by simp [taker, takeReportTake, noFields_of_field hf])

theorem exec_faultTake_empty (hears : s.hears n .line payload) (hf : fields payload = []) (hempty : s.ring.faults = []) :
    exec (.faultTake n tag payload) s = .next (s.answered n 0x38 tag payload .empty 0 []) :=
  exec_unchanged (k := .faultTake) (a := refuse .empty 0) ⟨hears.1, hears.2.2⟩ (beq_iff_eq.mpr hears.2.1)
    (by simp [taker, takeFaultTake, noFields_of_nil hf, hempty])

theorem exec_reportTake_empty (hears : s.hears n .line payload) (hf : fields payload = []) (hempty : s.reports = []) :
    exec (.reportTake n tag payload) s = .next (s.answered n 0x70 tag payload .empty 0 []) :=
  exec_unchanged (k := .reportTake) (a := refuse .empty 0) ⟨hears.1, hears.2.2⟩ (beq_iff_eq.mpr hears.2.1)
    (by simp [taker, takeReportTake, noFields_of_nil hf, hempty])

theorem exec_faultTake_oldest {e : FaultEntry} {later : List FaultEntry} (hears : s.hears n .line payload)
    (hf : fields payload = []) (he : s.ring.faults = e :: later) :
    exec (.faultTake n tag payload) s = .next
      ((s.withRing { s.ring with faults := later }).answered n 0x38 tag payload .ok 0
        (e.words ++ words1 later.length)).evalLines :=
  exec_changed_lines (k := .faultTake) (t := s.withRing { s.ring with faults := later })
    (a := accept (e.words ++ words1 later.length)) ⟨hears.1, hears.2.2⟩ (beq_iff_eq.mpr hears.2.1)
    (by simp [taker, takeFaultTake, noFields_of_nil hf, he, receiveFrame_withRing])

theorem exec_reportTake_oldest {r : Report} {later : List Report} (hears : s.hears n .line payload)
    (hf : fields payload = []) (hr : s.reports = r :: later) :
    exec (.reportTake n tag payload) s = .next
      ((s.withReports later).answered n 0x70 tag payload .ok 0 (r.words ++ words1 later.length)).evalLines :=
  exec_changed_lines (k := .reportTake) (t := s.withReports later)
    (a := accept (r.words ++ words1 later.length)) ⟨hears.1, hears.2.2⟩ (beq_iff_eq.mpr hears.2.1)
    (by simp [taker, takeReportTake, noFields_of_nil hf, hr, receiveFrame_withReports])

end

end Sys2Proof.Machine

/-! ### The statements -/

open Sys2Proof Sys2Proof.Machine

/-- Settles O44: the refusals are those of the two parses, and a record found is answered in its words. -/
theorem webReadsReportQueuedRecords : Obligations.WebReadsReportQueuedRecords := by
  refine ⟨fun s n tag payload hears => ⟨fun hf => ⟨?_, ?_⟩, fun f rest hf hout => ?_,
    fun f g rest hf => ⟨fun hlow hhigh hg => ?_, ?_⟩, fun f g h rest hf hlow hhigh hg => ?_⟩, ?_, ?_⟩
  · exact exec_segmentGet hears (segmentGetAnswer_refused (segmentGetParse_nil hf))
  · exact exec_webWhere hears (webWhereAnswer_refused (oneSigned_of_nil hf))
  · exact exec_segmentGet hears (segmentGetAnswer_refused (segmentGetParse_seq hf hout))
  · exact exec_segmentGet hears (segmentGetAnswer_refused (segmentGetParse_part hf hlow hhigh hg))
  · exact exec_webWhere hears (webWhereAnswer_refused (oneSigned_of_second hf))
  · exact exec_segmentGet hears (segmentGetAnswer_refused (segmentGetParse_third hf hlow hhigh hg))
  · rintro s n tag payload f parts g stage hears hf hlow hhigh hparts rfl
    have hparse := segmentGetParse_ok hf hlow hhigh hparts
    refine ⟨fun hgone => exec_segmentGet hears (segmentGetAnswer_gone hparse hgone), fun hq => ⟨fun hpart => ?_,
      fun hpart => ?_⟩⟩
    · rw [hpart] at hparse
      have hexec := exec_segmentGet (n := n) (tag := tag) hears (segmentGetAnswer_ok hparse hq)
      rw [if_pos rfl] at hexec
      unfold State.segmentWords at hexec
      rw [State.stage_toCode, flagWord_eq, flagWord_eq, flagWord_eq] at hexec
      exact hexec
    · rw [hpart] at hparse
      have hexec := exec_segmentGet (n := n) (tag := tag) hears (segmentGetAnswer_ok hparse hq)
      rw [if_neg (by decide)] at hexec
      unfold Segment.regWords RegEntry.words at hexec
      simp only [flagWord_eq] at hexec
      exact hexec
  · rintro s n tag payload f g c stage hears hf rfl rfl
    have hparse := oneSigned_of_field hf
    refine ⟨fun hnone => ?_, fun hq => ?_⟩
    · have hempty : containing s.web.queue (s.pos.p - f.signed - 1) = none := containing_none.mpr hnone
      exact exec_webWhere hears (webWhereAnswer_empty hparse hempty)
    · have hexec := exec_webWhere (n := n) (tag := tag) hears (webWhereAnswer_ok hparse hq)
      rw [State.stage_toCode] at hexec
      exact hexec

/-- Settles O45: the refusals of the parse, then those of the acceptance checks in their order. -/
theorem regReportChecksInOrder : Obligations.RegReportChecksInOrder := by
  refine ⟨fun s n tag payload hears => ⟨fun hf => ?_, fun x hx => ?_, fun f g h hf => ⟨fun hout => ?_,
    fun hlow hhigh hg => ?_⟩⟩, fun s n tag payload f g h k hears hf hlow hhigh hk => ?_⟩
  · exact exec_regReport_malformed hears (regReportParse_tooFew hf)
  · exact exec_regReport_malformed hears (regReportParse_fourth hx)
  · exact exec_regReport_malformed hears (regReportParse_seq hf hout)
  · exact exec_regReport_malformed hears (regReportParse_screen hf hlow hhigh hg)
  · have hparse := regReportParse_ok hf hlow hhigh hk
    refine ⟨fun hgone => exec_regReport_refused hears hparse (regReportAccept_gone hgone), fun q hq =>
      ⟨fun hcamera => exec_regReport_refused hears hparse (regReportAccept_early hq hcamera), fun hcamera =>
        ⟨fun hkey => exec_regReport_refused hears hparse (regReportAccept_reference hq hcamera hkey), fun hkey =>
          ⟨fun hprinted => exec_regReport_refused hears hparse (regReportAccept_unprinted hq hcamera hkey hprinted),
            fun hprinted => ⟨fun habsent => ?_, fun hpresent => ?_⟩⟩⟩⟩⟩
    · exact exec_regReport_refused hears hparse (regReportAccept_absent hq hcamera hkey hprinted habsent)
    · exact exec_regReport_accepted hears hparse (regReportAccept_ok hq hcamera hkey hprinted hpresent)

/-- Settles O49: the refusals are those of the one-field parse; a zone and a roll that stand are answered in their
words. -/
theorem zoneAndRollSnapshots : Obligations.ZoneAndRollSnapshots := by
  refine ⟨fun s n tag payload hears => ⟨fun hrole => ?_, fun hrole => ⟨fun hf => ?_, fun f rest hf hout => ?_,
    fun f g rest hf hlow hhigh => ?_, ?_⟩⟩, fun s n tag payload seam hears hopening hseam => ?_⟩
  · exact exec_role (k := .zoneContents) hears (by rw [hrole]; rfl)
  · exact exec_zoneContents hears hrole (zoneContentsAnswer_refused (oneField_of_nil hf))
  · exact exec_zoneContents hears hrole (zoneContentsAnswer_refused (oneField_of_outside hf (by omega)))
  · exact exec_zoneContents hears hrole (zoneContentsAnswer_refused (oneField_of_second hf hlow hhigh))
  · intro f i z low inside hf hvalue hz hfirst hlater hinside
    have hlt : i < s.oven.zones.length := (List.getElem?_eq_some_iff.mp hz).1
    obtain ⟨low', hspan, hfirst', hlater'⟩ := zoneSpans_getElem? _ s.oven.b0 i z hz
    have hlow : low' = low := by
      cases i with
      | zero => rw [hfirst' rfl, hfirst rfl]
      | succ i =>
        have hbefore := List.getElem?_eq_getElem (l := s.oven.zones) (i := i) (by omega)
        rw [hlater' _ (Nat.succ_pos i) hbefore, hlater _ (Nat.succ_pos i) hbefore]
    subst hlow
    have hparse := oneField_of_value (low := 1) (high := s.oven.zones.length) hf (by omega) (by omega)
    rw [hvalue] at hparse
    have hexec := exec_zoneContents (n := n) (tag := tag) hears hrole (zoneContentsAnswer_ok hparse hspan)
    rw [s.zoneWords_eq _ _ _ inside hinside, ← hvalue] at hexec
    exact hexec
  · have hwords := seamWords_eq hopening hseam
    refine ⟨fun hf => ?_, fun f rest hf hout => ?_, fun f g rest hf hlow hhigh => ?_, fun f hf hlow hhigh => ⟨fun hgone => ?_,
      fun r hr => ?_⟩⟩
    · have hexec := exec_rollGet (n := n) (tag := tag) hears (rollGetAnswer_list (s := s) hf)
      unfold Roll.listWords at hexec
      simp only [hwords] at hexec
      exact hexec
    · exact exec_rollGet hears (rollGetAnswer_refused hf (oneField_of_outside hf (by omega)))
    · exact exec_rollGet hears (rollGetAnswer_refused hf (oneField_of_second hf hlow hhigh))
    · exact exec_rollGet hears (rollGetAnswer_gone hf (oneField_of_value hf hlow hhigh) hgone)
    · have hexec := exec_rollGet (n := n) (tag := tag) hears (rollGetAnswer_ok hf (oneField_of_value hf hlow hhigh) hr)
      unfold Roll.words at hexec
      rw [hwords] at hexec
      exact hexec

/-- Settles O34: the words of `State.screenWords`, with two free ones where the screen has no group. -/
theorem screenGetReportsTheScreen : Obligations.ScreenGetReportsTheScreen := by
  refine ⟨?_, Kind.checksOneIndex_of_oneScreen (fun _ _ => rfl) fun n payload s e h => ?_⟩
  · rintro s n tag payload f k x group hears hf hk rfl rfl
    have hparse := oneScreen_of_index hf hk
    refine ⟨fun a ha => ?_, fun ha =>
      ⟨Config.freeWord s.freeIndex, Config.freeWord (s.freeIndex + 1), ?_⟩⟩
    · have hexec := exec_screenGet_grouped (n := n) (tag := tag) hears hparse ha
      rw [State.screenWords_eq s k _ rfl, flagWord_eq, flagWord_eq] at hexec
      exact hexec
    · have hexec := exec_screenGet_ungrouped (n := n) (tag := tag) hears hparse ha
      rw [State.screenWords_eq s k _ rfl] at hexec
      exact hexec
  · simp [taker, takeScreenGet, h]

/-- Settles O39: each take removes the head of its list, or answers EMPTY. -/
theorem takesRemoveTheOldest : Obligations.TakesRemoveTheOldest := by
  refine ⟨fun s n tag payload hears => ⟨fun hrole => ⟨?_, ?_⟩, fun hrole f rest hf => ⟨?_, ?_⟩⟩,
    fun s n tag payload e rest hears hf => ⟨?_, ?_⟩, fun s n tag payload rest hears hf => ⟨?_, fun r hr => ?_, fun r hr => ?_⟩⟩
  · exact exec_role (k := .faultTake) hears (beq_false_of_ne hrole)
  · exact exec_role (k := .reportTake) hears (beq_false_of_ne hrole)
  · exact exec_faultTake_range ⟨hears.1, hrole, hears.2⟩ hf
  · exact exec_reportTake_range ⟨hears.1, hrole, hears.2⟩ hf
  · exact exec_faultTake_empty hears hf
  · intro he
    rw [exec_faultTake_oldest hears hf he]
    rfl
  · exact exec_reportTake_empty hears hf
  · rw [exec_reportTake_oldest hears hf hr]
    rfl
  · rw [exec_reportTake_oldest hears hf hr]
    simp only [Report.words, RollReport.words, seqWords, Tally.words, List.append_assoc]
    cases r.seamAt <;> rfl

end

section
/-! PROOFS. The overlap with a zone, the reading of returned slots, and the faults that a turnaround gives. -/

namespace Sys2Proof.Machine

/-! ### Overlap (R140) -/

/-- The positions of a span that lie within bounds. -/
theorem filter_Ico_within (a b low high : Int) :
    (Finset.Ico a b).filter (fun x => low ≤ x ∧ x < high) = Finset.Ico (max a low) (min b high) := by
  ext x
  simp only [Finset.mem_filter, Finset.mem_Ico]
  omega

theorem overlap_eq_card (p low high : Int) (g : Segment) :
    overlap p g low high =
      ((Finset.Ico (p - g.start - g.length) (p - g.start)).filter fun x => low ≤ x ∧ x < high).card := by
  rw [filter_Ico_within, Int.card_Ico]
  unfold overlap
  omega

/-! ### Returned slots (R73, R185) -/

theorem msb_iff (a : Word) : a.msb = true ↔ 32768 ≤ a.toNat := by
  rw [BitVec.msb_eq_decide, decide_eq_true_iff]

theorem slotIndex_iff (a : Word) (k : ScreenId) :
    a.extractLsb' 8 5 = BitVec.ofNat 5 k.val ↔ a.toNat / 256 % 32 = k.val := by
  have hk := k.isLt
  rw [← BitVec.toNat_inj, BitVec.extractLsb'_toNat, BitVec.toNat_ofNat, Nat.shiftRight_eq_div_pow]
  omega

theorem slotLow_iff (a : Word) (b : Byte) : a.extractLsb' 0 8 = b ↔ a.toNat % 256 = b.toNat := by
  rw [← BitVec.toNat_inj, BitVec.extractLsb'_toNat, Nat.shiftRight_zero]

/-- The two bits of a drive state (R185). -/
def DriveState.bits : DriveState → Nat
  | .raised => 0
  | .travel => 1
  | .lowered => 2
  | .fault => 3

theorem driveStateOf_iff (b : BitVec 2) (x : DriveState) : driveStateOf b = x ↔ b.toNat = x.bits := by
  revert b
  cases x <;> decide

theorem slotState_iff (a : Word) (x : DriveState) :
    driveStateOf (a.extractLsb' 13 2) = x ↔ a.toNat / 8192 % 4 = x.bits := by
  rw [driveStateOf_iff, BitVec.extractLsb'_toNat, Nat.shiftRight_eq_div_pow]

theorem slotReply_iff (words : List Word) (k : ScreenId) (r : DriveReply) :
    slotReply words k = some r ↔ ∃ a : Word, words[2 + 2 * k.val]? = some a ∧ words[3 + 2 * k.val]? = some r.phase
      ∧ 32768 ≤ a.toNat ∧ a.toNat / 256 % 32 = k.val
      ∧ a.toNat % 256 = (slotCheck (BitVec.ofNat 8 (a.toNat / 256)) r.phase).toNat
      ∧ a.toNat / 8192 % 4 = r.state.bits := by
  obtain ⟨state, phase⟩ := r
  unfold slotReply
  rcases ha : words[2 + 2 * k.val]? with _ | a
  · simp
  rcases hb : words[3 + 2 * k.val]? with _ | b
  · simp
  have hread : (a.msb && a.extractLsb' 8 5 == BitVec.ofNat 5 k.val
        && a.extractLsb' 0 8 == slotCheck (a.extractLsb' 8 8) b) = true
      ↔ 32768 ≤ a.toNat ∧ a.toNat / 256 % 32 = k.val
        ∧ a.toNat % 256 = (slotCheck (BitVec.ofNat 8 (a.toNat / 256)) b).toNat := by
    simp only [Bool.and_eq_true, beq_iff_eq, msb_iff, slotIndex_iff, slotLow_iff, ofNat_high, and_assoc]
  simp only [hread, Option.ite_none_right_eq_some, Option.some.injEq, DriveReply.mk.injEq, slotState_iff]
  constructor
  · rintro ⟨⟨hmark, hindex, hcheck⟩, hstate, rfl⟩
    exact ⟨a, rfl, rfl, hmark, hindex, hcheck, hstate⟩
  · rintro ⟨a', rfl, rfl, hmark, hindex, hcheck, hstate⟩
    exact ⟨⟨hmark, hindex, hcheck⟩, hstate, rfl⟩

theorem exec_ringFrameReturn_unread {s : State} {words : List Word}
    (h : ∀ count, s.ring.inFlight = some count → ¬ headerGood count words) :
    exec (.ringFrameReturn words) s = .next s := by
  refine congrArg Host.Outcome.next ?_
  split_ifs with hreset
  · rfl
  · cases hflight : s.ring.inFlight with
    | none => rfl
    | some count => exact if_neg (mt (headerMatches_iff count words).mp (h count hflight))

theorem exec_turnaroundExpiry_idle {s : State} {words : List Word}
    (h : s.ring.timer = false ∨ s.ring.inFlight = none) : exec (.turnaroundExpiry words) s = .next s := by
  refine congrArg Host.Outcome.next ?_
  split_ifs with hstopped
  · rfl
  · have hflight : s.ring.inFlight = none := h.resolve_left fun htimer => hstopped (.inr htimer)
    rw [hflight]

/-! ### The fault a slot gives (R75, R76) -/

/-- The fault of R75 and R76 is that of the model. -/
theorem Screen.slotFault_iff (x : Screen) (reply : Option DriveReply) (after : RingState) (c : FaultCause) :
    x.slotFault reply after = some c ↔ x.gives reply after c := by
  unfold Screen.slotFault Screen.gives
  rcases reply with _ | ⟨_ | _ | _ | _, phase⟩
  · by_cases hmiss : x.miss = 3
    · by_cases hlost : after = .lost
      · simp [hmiss, hlost, eq_comm]
      · simp [hmiss, hlost, eq_comm]
    · simp [hmiss]
  · simp [eq_comm]
    tauto
  · simp [eq_comm]
    tauto
  · simp
  · simp [eq_comm]
    tauto

/-! ### Fault list entries (R80) -/

theorem mem_entriesOf {k : ScreenId} {e : FaultEntry} {l : List FaultEntry} :
    e ∈ entriesOf k l ↔ e ∈ l ∧ e.screen = k := by
  simp [entriesOf]

theorem entriesOf_eq_nil {k : ScreenId} {l : List FaultEntry} : entriesOf k l = [] ↔ ∀ e ∈ l, e.screen ≠ k := by
  simp [entriesOf]

/-- A screen with no entry gets one. -/
theorem mem_enterFault_new {e : FaultEntry} {l : List FaultEntry} (h : ∀ x ∈ l, x.screen ≠ e.screen) :
    e ∈ enterFault e l := by
  unfold enterFault
  rw [if_neg (by simpa using h)]
  exact List.mem_append_right _ List.mem_cons_self

/-- An entry of the screen counts one repeat more. -/
theorem mem_enterFault_repeat {e x : FaultEntry} {l : List FaultEntry} (hx : x ∈ l) (h : x.screen = e.screen) :
    { x with repeats := min 255 (x.repeats + 1) } ∈ enterFault e l := by
  unfold enterFault
  rw [if_pos (by simpa using ⟨x, hx, h⟩)]
  exact List.mem_map.mpr ⟨x, hx, if_pos h⟩

/-! ### What a fault leaves of another screen (R66, R79) -/

theorem marksOf_unmark_ne {j k : ScreenId} (h : j ≠ k) (w : Int) (q : List Segment) :
    marksOf k (unmark j w q) = marksOf k q := by
  unfold marksOf unmark
  rw [List.map_map]
  refine List.map_congr_left fun g _ => ?_
  dsimp only [Function.comp]
  split
  · simp [inSet_dropFrom, h.symm]
  · rfl

section
variable {s u : State} {k j : ScreenId} {c : FaultCause} {seq : Nat}

/-- A fault unmarks its screen where it was down (R66, item 1). -/
theorem State.screenFault_queue :
    (s.screenFault k c seq).web.queue =
      if s.engState k = .printing ∨ s.engState k = .ending then unmark k (s.design k) s.web.queue else s.web.queue := by
  unfold State.screenFault State.engageFault
  cases hstate : s.engState k <;> simp

theorem KeepsScreen.screenFault (h : k ≠ j) : KeepsScreen k s (s.screenFault j c seq) where
  screen := by
    rw [(EngOnly.screenFault j c seq s).screen k, State.screenFault_eng, if_neg fun hkj => h hkj.1]
  faults := by
    rw [State.screenFault_faults]
    split_ifs
    · rfl
    · exact entriesOf_enterFault_ne h.symm _
  marks := by
    rw [State.screenFault_queue]
    split_ifs
    · exact marksOf_unmark_ne h.symm _ _
    · rfl

theorem State.screenFault_latches (hstate : s.engState k ≠ .absent) (hfaulted : s.engState k ≠ .faulted) (n : PortId)
    (hsees : (s.port n).role.sees .screenFault) : hasKind ((s.screenFault k c seq).port n).latched .screenFault := by
  unfold State.screenFault
  rw [if_neg hstate, State.hasKind_latchIf]
  refine .inr ⟨by simp [hfaulted], rfl, ?_⟩
  rw [State.port_withRing, ((EngOnly.engageFault k c s).latches.keeps n).1]
  exact hsees

/-! ### The turnaround, screen by screen -/

variable (reply : ScreenId → Option DriveReply)

theorem State.faultSlot_of_fault (u : State) (hpresent : (s.screen k).present = true)
    (hc : (s.screen k).slotFault (reply k) (s.ringTurned reply) = some c) :
    s.faultSlot reply u k = u.screenFault k c (u.seqUnder k) := by
  unfold State.faultSlot
  rw [if_pos hpresent, hc]

theorem State.faultSlot_of_none (u : State)
    (hnone : (s.screen k).present = true → (s.screen k).slotFault (reply k) (s.ringTurned reply) = none) :
    s.faultSlot reply u k = u := by
  unfold State.faultSlot
  split_ifs with hpresent
  · rw [hnone hpresent]
  · rfl

theorem KeepsScreen.faultSlot (u : State) (h : k ≠ j) : KeepsScreen k u (s.faultSlot reply u j) := by
  unfold State.faultSlot
  split_ifs
  · split
    · exact .screenFault h
    · exact .refl k u
  · exact .refl k u

theorem KeepsScreen.faultFold {l : List ScreenId} (hk : k ∉ l) (u : State) :
    KeepsScreen k u (l.foldl (s.faultSlot reply) u) := by
  induction l generalizing u with
  | nil => exact .refl k u
  | cons j l ih =>
    rw [List.mem_cons, not_or] at hk
    exact (KeepsScreen.faultSlot reply u hk.1).trans (ih hk.2 _)

/-- A state in which the slot of screen k gives its fault: it differs from the state with the frame closed in nothing of
screen k, and what follows keeps what screen k has become. -/
structure State.MeetsFault (s : State) (reply : ScreenId → Option DriveReply) (k : ScreenId) (u : State) : Prop where
  before : EngOnly (s.closeFrame reply) u
  keeps : KeepsScreen k (s.closeFrame reply) u
  after : EngOnly (s.faultSlot reply u k) (s.faultSlots reply)
  kept : KeepsScreen k (s.faultSlot reply u k) (s.faultSlots reply)

theorem State.exists_meetsFault (s : State) (reply : ScreenId → Option DriveReply) (k : ScreenId) :
    ∃ u, s.MeetsFault reply k u := by
  obtain ⟨before, after, hsplit⟩ := List.append_of_mem (mem_allScreens k)
  have hnodup := nodup_allScreens
  rw [hsplit, List.nodup_middle, List.nodup_cons, List.mem_append, not_or] at hnodup
  have hfold : s.faultSlots reply
      = after.foldl (s.faultSlot reply) (s.faultSlot reply (before.foldl (s.faultSlot reply) (s.closeFrame reply)) k) := by
    unfold State.faultSlots
    rw [hsplit, List.foldl_append, List.foldl_cons]
  refine ⟨before.foldl (s.faultSlot reply) (s.closeFrame reply), ?_, .faultFold reply hnodup.1.1 _, ?_, ?_⟩
  · exact .foldl _ (fun u j => .faultSlot reply s u j) _ _
  · rw [hfold]
    exact .foldl _ (fun u j => .faultSlot reply s u j) _ _
  · rw [hfold]
    exact .faultFold reply hnodup.1.2 _

variable {reply}

theorem State.MeetsFault.eng (h : s.MeetsFault reply k u) : (u.screen k).eng = (s.screen k).eng := by
  rw [h.keeps.screen, State.screen_closeFrame, State.screen_readSlots]
  split_ifs
  · rw [Screen.evalSlot_eq]
  · rfl

theorem State.MeetsFault.pos (h : s.MeetsFault reply k u) : u.pos = s.pos := by
  rw [h.before.frame, State.closeFrame_eq]

theorem State.MeetsFault.design (h : s.MeetsFault reply k u) : u.design k = s.design k := by
  rw [h.before.design]
  refine State.design_congr (by rw [State.closeFrame_eq]) (fun j => ?_) (fun j => ?_) k
    <;> rw [State.screen_closeFrame, State.screen_readSlots] <;> split_ifs
  · rw [Screen.evalSlot_eq]; exact {}
  · exact {}
  · rw [Screen.evalSlot_eq]
  · rfl

theorem State.MeetsFault.queue (h : s.MeetsFault reply k u) : unprinted u.web.queue = unprinted s.web.queue := by
  rw [h.before.queue, State.web_closeFrame]

theorem State.MeetsFault.faults (h : s.MeetsFault reply k u) :
    entriesOf k u.ring.faults = entriesOf k s.ring.faults := by
  rw [h.keeps.faults, State.closeFrame_eq]

theorem State.MeetsFault.marks (h : s.MeetsFault reply k u) : marksOf k u.web.queue = marksOf k s.web.queue := by
  rw [h.keeps.marks, State.web_closeFrame]

/-- The seq that holds a coordinate does not depend on the printed sets. -/
theorem containing_seq_congr {q q' : List Segment} (h : unprinted q' = unprinted q) (w : Int) :
    (containing q' w).map Segment.seq = (containing q w).map Segment.seq := by
  have hunprinted : ∀ q : List Segment,
      (containing (unprinted q) w).map Segment.seq = (containing q w).map Segment.seq := by
    intro q
    unfold containing unprinted
    rw [List.find?_map, Option.map_map]
    rfl
  rw [← hunprinted q', ← hunprinted q, h]

theorem State.MeetsFault.seqUnder (h : s.MeetsFault reply k u) :
    u.seqUnder k = ((containing s.web.queue (s.design k)).map Segment.seq).getD 0 := by
  unfold State.seqUnder
  rw [h.design, containing_seq_congr h.queue]

/-- The records of two queues that differ in printed sets alone, place by place. -/
theorem unprinted_getElem? {q q' : List Segment} (h : unprinted q' = unprinted q) {i : Nat} {g g' : Segment}
    (hg : q[i]? = some g) (hg' : q'[i]? = some g') : g' = { g with printed := g'.printed } := by
  have hi := congrArg (fun l => l[i]?) h
  simp only [unprinted, List.getElem?_map, hg, hg', Option.map_some, Option.some.injEq] at hi
  cases g
  cases g'
  simp only [Segment.mk.injEq] at hi ⊢
  tauto

theorem marksOf_getElem? {q q' : List Segment} (h : marksOf k q' = marksOf k q) {i : Nat} {g g' : Segment}
    (hg : q[i]? = some g) (hg' : q'[i]? = some g') : inSet g'.printed k = inSet g.printed k := by
  have hi := congrArg (fun l => l[i]?) h
  simpa only [marksOf, List.getElem?_map, hg, hg', Option.map_some, Option.some.injEq] using hi

theorem unmark_getElem? {q : List Segment} {w : Int} {i : Nat} {g : Segment} (hg : q[i]? = some g) :
    (unmark k w q)[i]? = some (if g.holds w then { g with printed := dropFrom g.printed k } else g) := by
  unfold unmark
  rw [List.getElem?_map, hg, Option.map_some]

/-- The mark of a screen after its slot has given its fault. -/
theorem State.MeetsFault.marked (h : s.MeetsFault reply k u) {i : Nat} {g g' : Segment} (hg : s.web.queue[i]? = some g)
    (hg' : (s.faultSlot reply u k).web.queue[i]? = some g') :
    inSet g'.printed k = true ↔ inSet g.printed k = true
      ∧ ¬ ((s.screen k).present = true ∧ (s.engState k = .printing ∨ s.engState k = .ending)
          ∧ (∃ cause, (s.screen k).gives (reply k) (s.ringTurned reply) cause)
          ∧ g.start ≤ s.design k ∧ s.design k < g.start + g.length) := by
  have hlength : u.web.queue.length = s.web.queue.length := by
    simpa only [unprinted, List.length_map] using congrArg List.length h.queue
  obtain ⟨gu, hgu⟩ : ∃ gu, u.web.queue[i]? = some gu := by
    have hi := (List.getElem?_eq_some_iff.mp hg).1
    exact ⟨_, List.getElem?_eq_getElem (hlength ▸ hi)⟩
  have hsame := unprinted_getElem? h.queue hg hgu
  have hmark := marksOf_getElem? h.marks hg hgu
  have hstate : u.engState k = s.engState k := congrArg Engagement.state h.eng
  by_cases hgives : (s.screen k).present = true
      ∧ ∃ cause, (s.screen k).slotFault (reply k) (s.ringTurned reply) = some cause
  · obtain ⟨hpresent, cause, hcause⟩ := hgives
    have hsome : ∃ cause, (s.screen k).gives (reply k) (s.ringTurned reply) cause :=
      ⟨cause, (Screen.slotFault_iff _ _ _ _).mp hcause⟩
    rw [State.faultSlot_of_fault reply u hpresent hcause, State.screenFault_queue, hstate, h.design] at hg'
    by_cases hdown : s.engState k = .printing ∨ s.engState k = .ending
    · rw [if_pos hdown, unmark_getElem? hgu] at hg'
      have hholds : gu.holds (s.design k) = true ↔ g.start ≤ s.design k ∧ s.design k < g.start + g.length := by
        rw [hsame]
        simp [Segment.holds]
      obtain rfl := (Option.some.inj hg').symm
      simp only [hpresent, hdown, hsome, true_and, ← hholds]
      by_cases hh : gu.holds (s.design k) = true
      · simp [hh, inSet_dropFrom]
      · simp [hh, hmark]
    · rw [if_neg hdown, hgu] at hg'
      obtain rfl := Option.some.inj hg'
      simp only [hdown, false_and, and_false, not_false_eq_true, and_true, hmark]
  · have hnone : (s.screen k).present = true → (s.screen k).slotFault (reply k) (s.ringTurned reply) = none :=
      fun hpresent => Option.eq_none_iff_forall_ne_some.mpr fun c hc => hgives ⟨hpresent, c, hc⟩
    rw [State.faultSlot_of_none reply u hnone, hgu] at hg'
    obtain rfl := Option.some.inj hg'
    rw [hmark]
    refine ⟨fun hin => ⟨hin, fun ⟨hpresent, _, ⟨cause, hcause⟩, _⟩ => ?_⟩, fun hin => hin.1⟩
    exact hgives ⟨hpresent, cause, (Screen.slotFault_iff _ _ _ _).mpr hcause⟩

/-! ### The state after a turnaround -/

theorem State.turnaround_web : (s.turnaround reply).web = (s.faultSlots reply).web := by
  rw [State.turnaround_eq, State.evalLines_web, State.evalHold_web]

theorem State.turnaround_faults : (s.turnaround reply).ring.faults = (s.faultSlots reply).ring.faults := by
  rw [State.turnaround_eq, State.evalLines_ring, State.evalHold_ring]

theorem State.turnaround_screen (k : ScreenId) : (s.turnaround reply).screen k = (s.faultSlots reply).screen k := by
  rw [State.turnaround_eq, State.screen_evalLines, State.screen_evalHold]

theorem State.turnaround_latched (n : PortId) :
    ((s.turnaround reply).port n).latched = ((s.faultSlots reply).port n).latched := by
  rw [State.turnaround_eq, State.port_evalLines, State.port_evalHold]

/-- The screen and the fault list of a turnaround where the slot of screen k gives no fault. -/
theorem State.turnaround_unfaulted (hnone : ∀ cause, ¬ (s.screen k).gives (reply k) (s.ringTurned reply) cause) :
    ((s.turnaround reply).screen k).eng = (s.screen k).eng
      ∧ ∀ e ∈ s.ring.faults, e.screen = k → e ∈ (s.turnaround reply).ring.faults := by
  obtain ⟨u, hu⟩ := s.exists_meetsFault reply k
  have hslot : s.faultSlot reply u k = u := State.faultSlot_of_none reply u fun _ =>
    Option.eq_none_iff_forall_ne_some.mpr fun c hc => hnone c ((Screen.slotFault_iff _ _ _ _).mp hc)
  have hkept := hu.kept
  rw [hslot] at hkept
  refine ⟨by rw [State.turnaround_screen, hkept.screen, hu.eng], fun e he hk => ?_⟩
  have hin : e ∈ entriesOf k (s.faultSlots reply).ring.faults := by
    rw [hkept.faults, hu.faults]
    exact mem_entriesOf.mpr ⟨he, hk⟩
  rw [State.turnaround_faults]
  exact (mem_entriesOf.mp hin).1

/-- The screen, the fault list and the attention sets of a turnaround where the slot of screen k gives a fault. -/
theorem State.turnaround_faulted (hpresent : (s.screen k).present = true) (hstate : s.engState k ≠ .absent)
    (hgives : (s.screen k).gives (reply k) (s.ringTurned reply) c) :
    (s.engState k = .faulted → ((s.turnaround reply).screen k).eng = (s.screen k).eng)
      ∧ (s.engState k ≠ .faulted → ((s.turnaround reply).screen k).eng = (s.screen k).eng.fault c
          ∧ ∀ n, (s.port n).role.sees .screenFault → hasKind ((s.turnaround reply).port n).latched .screenFault)
      ∧ ((∀ e ∈ s.ring.faults, e.screen ≠ k) →
          { screen := k, cause := c, seq := ((containing s.web.queue (s.design k)).map Segment.seq).getD 0, p := s.pos.p,
            repeats := 1 } ∈ (s.turnaround reply).ring.faults)
      ∧ ∀ e ∈ s.ring.faults, e.screen = k →
          { e with repeats := min 255 (e.repeats + 1) } ∈ (s.turnaround reply).ring.faults := by
  obtain ⟨u, hu⟩ := s.exists_meetsFault reply k
  have hslot := State.faultSlot_of_fault reply u hpresent ((Screen.slotFault_iff _ _ _ _).mpr hgives)
  have hkept := hu.kept
  have hafter := hu.after
  rw [hslot] at hkept hafter
  have hstate' : u.engState k = s.engState k := congrArg Engagement.state hu.eng
  have habsent : u.engState k ≠ .absent := hstate'.trans_ne hstate
  have heng := State.screenFault_eng k k c (u.seqUnder k) u
  have hfaults := State.screenFault_faults k c (u.seqUnder k) u
  rw [if_neg habsent, hu.seqUnder, hu.pos] at hfaults
  have hin : ∀ e ∈ (u.screenFault k c (u.seqUnder k)).ring.faults, e.screen = k →
      e ∈ (s.turnaround reply).ring.faults := by
    intro e he hk
    rw [State.turnaround_faults]
    exact (mem_entriesOf.mp (hkept.faults ▸ mem_entriesOf.mpr ⟨he, hk⟩)).1
  rw [hu.seqUnder] at hin
  rw [State.turnaround_screen, hkept.screen, heng, hstate', hu.eng]
  refine ⟨fun h => if_neg fun h' => h'.2.2 h, fun h => ⟨if_pos ⟨rfl, hstate, h⟩, fun n hsees => ?_⟩, fun hnew => ?_,
    fun e he hk => ?_⟩
  · have hrole : (u.port n).role = (s.port n).role := by
      rw [(hu.before.latches.keeps n).1, State.port_closeFrame]
    have hlatched := State.screenFault_latches (c := c) (seq := u.seqUnder k) habsent (hstate'.trans_ne h) n
      (hrole ▸ hsees)
    rw [State.turnaround_latched]
    exact (hafter.latches n).2.1 _ hlatched
  · refine hin _ ?_ rfl
    rw [hfaults]
    refine mem_enterFault_new fun x hx hxk => ?_
    have hx' := mem_entriesOf.mpr ⟨hx, hxk⟩
    rw [hu.faults, entriesOf_eq_nil.mpr hnew] at hx'
    exact nomatch hx'
  · refine hin _ ?_ hk
    rw [hfaults]
    refine mem_enterFault_repeat ?_ hk
    exact (mem_entriesOf.mp (hu.faults ▸ mem_entriesOf.mpr ⟨he, hk⟩)).1

end

end Sys2Proof.Machine

/-! ### The statements -/

open Sys2Proof Sys2Proof.Machine

/-- Settles O19: the positions shared are those of an interval, whose length is the overlap. -/
theorem overlapCountsSharedPositions : Obligations.OverlapCountsSharedPositions := overlap_eq_card

/-- Settles O16: a frame that is not read leaves the state, and a slot's reply is read off its two words. -/
theorem ringFramesAreReadByTheirChecks : Obligations.RingFramesAreReadByTheirChecks := by
  refine ⟨fun s words => ⟨exec_ringFrameReturn_unread, exec_turnaroundExpiry_idle⟩, fun words k r => ?_⟩
  rw [slotReply_iff]
  unfold DriveState.bits
  exact Iff.rfl

/-- Settles O18: each slot's fault is given in a state that differs in nothing of its screen, and kept by the faults
after it. -/
theorem turnaroundFaultsScreens : Obligations.TurnaroundFaultsScreens := by
  intro s c reply hby
  refine ⟨s.turnaround reply, exec_turnaroundBy hby, ?_, fun i g g' hg hg' k => ?_, fun k hpresent hstate => ?_⟩
  · simpa only [unprinted, List.length_map] using congrArg List.length (s.queue_turnaround reply)
  · obtain ⟨u, hu⟩ := s.exists_meetsFault reply k
    rw [State.turnaround_web] at hg'
    have hqueue := hu.after.queue
    have hlength : (s.faultSlots reply).web.queue.length = (s.faultSlot reply u k).web.queue.length := by
      simpa only [unprinted, List.length_map] using congrArg List.length hqueue
    obtain ⟨gu, hgu⟩ : ∃ gu, (s.faultSlot reply u k).web.queue[i]? = some gu :=
      ⟨_, List.getElem?_eq_getElem (hlength ▸ (List.getElem?_eq_some_iff.mp hg').1)⟩
    rw [marksOf_getElem? hu.kept.marks hgu hg', State.ring_turnaround]
    exact hu.marked hg hgu
  · rw [State.ring_turnaround]
    exact ⟨State.turnaround_unfaulted, fun cause hgives => State.turnaround_faulted hpresent hstate hgives⟩

end

section
/-! PROOFS. RUN.DRAIN: the screens it lifts, what a drain that completes at once closes, and its statement. -/

namespace Sys2Proof.Machine

section
variable {s : State} {n : PortId} {tag : Byte} {payload : List Word}

/-- The state of a run that has begun to drain: the planned screens are lifted (R91, R67). -/
def State.draining (s : State) : State := (s.withWeb { s.web with lineState := .drain }).liftPlanned

theorem State.runDrain_unfold (s : State) : s.runDrain = s.draining.drainIfEmpty.evalHold.evalLines := rfl

theorem State.draining_eq (s : State) :
    s.draining = { s with screens := s.draining.screens, planned := 0, web := { s.web with lineState := .drain } } := by
  have h := (PlanOnly.liftPlanned (s.withWeb { s.web with lineState := .drain })).1
  rw [State.planned_liftPlanned] at h
  exact h

theorem State.draining_web (s : State) : s.draining.web = { s.web with lineState := .drain } := by
  rw [s.draining_eq]

theorem State.draining_port (s : State) (m : PortId) : s.draining.port m = s.port m := by
  rw [s.draining_eq]
  rfl

theorem State.draining_reports (s : State) : s.draining.reports = s.reports := by
  rw [s.draining_eq]

/-- RUN.DRAIN lifts the planned screens and no others (R67). -/
theorem State.draining_screen (s : State) (k : ScreenId) :
    s.draining.screen k = { s.screen k with
      eng := if inSet s.planned k = true then (s.screen k).eng.lift s.web.nextSeq else (s.screen k).eng } := by
  have hview := view_foldl (step := fun u j => State.liftScreen j u) (view := State.standing) (act := Standing.lift)
    State.standing_liftScreen Standing.lift_lift
    (allScreens.filter fun k => inSet s.planned k) (s.withWeb { s.web with lineState := .drain }) k
  have heng : (s.draining.screen k).eng
      = if inSet s.planned k = true then (s.screen k).eng.lift s.web.nextSeq else (s.screen k).eng := by
    have h := congrArg Standing.eng hview
    simp only [List.mem_filter, mem_allScreens, true_and, apply_ite Standing.eng] at h
    exact h
  rw [← heng]
  exact (PlanOnly.liftPlanned (s.withWeb { s.web with lineState := .drain })).2 k

/-! ### The state after RUN.DRAIN (R91, R92) -/

/-- The reports of a drain that completes at once. -/
def State.drainReports (s : State) : List Report :=
  if s.web.queue = [] then s.web.rolls.map fun r => .roll (rollReport .drain r) else []

theorem State.runDrain_web (s : State) :
    s.runDrain.web =
      if s.web.queue = [] then { s.web with rolls := [], lineState := .setup } else { s.web with lineState := .drain } := by
  rw [State.runDrain_unfold, State.evalLines_web, State.evalHold_web, State.drainIfEmpty_web, State.draining_web]
  exact if_congr (and_iff_right rfl) rfl rfl

theorem State.runDrain_books (s : State) :
    Books s.draining (Ledger.drainIf (s.web.queue = []) ⟨s.web.rolls, []⟩) (fun e => s.web.queue = [] ∧ e = .drainDone)
      s.draining.drainIfEmpty := by
  have h := (Books.opened s.draining).drainIfEmpty
  simp only [State.draining_web, true_and] at h
  exact h.mono fun e => or_iff_right id

theorem State.drainIf_offered (s : State) :
    (Ledger.drainIf (s.web.queue = []) ⟨s.web.rolls, []⟩).offered = s.drainReports := by
  unfold Ledger.drainIf State.drainReports
  split_ifs <;> rfl

theorem State.runDrain_reports (s : State) : s.runDrain.reports = offeredTo s.reports s.drainReports := by
  rw [State.runDrain_unfold, State.evalLines_reports, State.evalHold_reports, s.runDrain_books.reports,
    State.draining_reports, State.drainIf_offered]

theorem State.runDrain_latched (s : State) (m : PortId) (e : EventKind) :
    hasKind (s.runDrain.port m).latched e ↔ hasKind (s.port m).latched e ∨ ((s.port m).role.sees e
      ∧ ((e = .rollClosed ∧ ∃ r ∈ s.drainReports, r.isRoll) ∨ (e = .reportLost ∧ overflows s.reports s.drainReports)
        ∨ (s.web.queue = [] ∧ e = .drainDone))) := by
  rw [State.runDrain_unfold, State.port_evalLines, State.port_evalHold]
  have h := s.runDrain_books.latched m e
  rwa [State.draining_port, State.draining_reports, State.drainIf_offered] at h

/-- With records queued a drain latches nothing. -/
theorem State.runDrain_latched_queued (h : s.web.queue ≠ []) (m : PortId) :
    (s.runDrain.port m).latched = (s.port m).latched := by
  refine kindSet_ext fun e => ?_
  have hreports : s.drainReports = [] := if_neg h
  rw [State.runDrain_latched, hreports]
  simp [h, overflows]

theorem State.runDrain_eq (s : State) : s.runDrain = { s with
    screens := s.runDrain.screens, planned := 0, ring := { s.ring with hold := s.runDrain.ring.hold }
    web := { s.web with lineState := s.runDrain.web.lineState, rolls := s.runDrain.web.rolls }
    reports := s.runDrain.reports, ports := s.runDrain.ports } := by
  have hweb : s.runDrain.web
      = { s.web with lineState := s.runDrain.web.lineState, rolls := s.runDrain.web.rolls } := by
    rw [State.runDrain_web]
    split_ifs <;> rfl
  have hframe : s.runDrain = { s.draining with
      ring := { s.draining.ring with hold := s.runDrain.ring.hold }, web := s.runDrain.web
      reports := s.runDrain.reports, ports := s.runDrain.ports } := by
    have h := (WebOnly.drainIfEmpty s.draining).1
    rw [State.runDrain_unfold]
    generalize s.draining.drainIfEmpty = u at *
    rw [h]
    rfl
  have hscreens : s.runDrain.screens = s.draining.screens := by rw [hframe]
  rw [hweb] at hframe
  rw [s.draining_eq] at hframe
  rw [hscreens]
  exact hframe

theorem State.runDrain_keeps (s : State) (m : PortId) :
    (s.runDrain.port m).enabled = (s.port m).enabled ∧ (s.runDrain.port m).sameSerial (s.port m) := by
  have h := (WebOnly.drainIfEmpty s.draining).2.keeps m
  rw [State.draining_port] at h
  rw [State.runDrain_unfold, State.port_evalLines, State.port_evalHold]
  exact ⟨h.2.1, h.2.2.2⟩

theorem State.runDrain_holdFollows (s : State) : s.runDrain.HoldFollows :=
  State.evalLines_holdFollows (State.evalHold_follow _)

/-! ### RUN.DRAIN as a command -/

theorem exec_runDrain_range {f : Field} {rest : List Field} (hears : s.hears n .line payload)
    (hf : fields payload = f :: rest) :
    exec (.runDrain n tag payload) s = .next (s.answered n 0x41 tag payload .range f.index []) :=
  exec_unchanged (k := .runDrain) (a := naming f) ⟨hears.1, hears.2.2⟩ (beq_iff_eq.mpr hears.2.1)
    (by simp [taker, takeRunDrain, noFields_of_field hf])

theorem exec_runDrain_state (hears : s.hears n .line payload) (hf : fields payload = [])
    (hline : s.web.lineState ≠ .run) :
    exec (.runDrain n tag payload) s = .next (s.answered n 0x41 tag payload .state 0 []) :=
  exec_unchanged (k := .runDrain) (a := refuse .state 0) ⟨hears.1, hears.2.2⟩ (beq_iff_eq.mpr hears.2.1)
    (by simp [taker, takeRunDrain, noFields_of_nil hf, hline])

/-- The words of an accepted RUN.DRAIN. -/
def State.drainWords (s : State) : List Word :=
  words1 (if s.web.queue = [] then 0 else 2) ++ words1 s.web.queue.length ++ words2 s.web.nextSeq

theorem State.runDrain_words (s : State) :
    words1 s.runDrain.web.lineState.toCode ++ words1 s.runDrain.web.queue.length ++ words2 s.runDrain.web.nextSeq
      = s.drainWords := by
  unfold State.drainWords
  rw [State.runDrain_web]
  split_ifs <;> rfl

theorem exec_runDrain_ok (hears : s.hears n .line payload) (hf : fields payload = []) (hline : s.web.lineState = .run) :
    exec (.runDrain n tag payload) s =
      .next ((s.receiveFrame n 0x41 tag payload).runDrain.holdReply n 0x41 tag (accept s.drainWords)) := by
  have htake : taker .runDrain n payload (s.receiveFrame n 0x41 tag payload)
      = ((s.receiveFrame n 0x41 tag payload).runDrain, accept s.drainWords) := by
    have hreceived : (s.receiveFrame n 0x41 tag payload).web.lineState = .run := hline
    dsimp only [taker, takeRunDrain]
    rw [noFields_of_nil hf]
    dsimp only
    rw [if_neg (by rw [hreceived]; decide), State.runDrain_words]
    rfl
  refine (exec_command .runDrain n tag payload s).trans (congrArg Host.Outcome.next ?_)
  rw [requestFrame_taken (k := .runDrain) ⟨hears.1, hears.2.2⟩ (beq_iff_eq.mpr hears.2.1)]
  exact congrArg (fun x : State × Answer => x.1.holdReply n 0x41 tag x.2) htake

end

end Sys2Proof.Machine

/-! ### The statement -/

open Sys2Proof Sys2Proof.Machine

/-- Settles O42: the planned screens are lifted, and with nothing queued the drain completes as `State.drainReports`
says. -/
theorem runDrainLiftsAndDrains : Obligations.RunDrainLiftsAndDrains := by
  refine ⟨fun s n tag payload hears hf hline => ?_, fun s n tag payload hears =>
    ⟨fun f rest hf => exec_runDrain_range hears hf, exec_runDrain_state hears⟩⟩
  have hkeeps := (s.receiveFrame n 0x41 tag payload).runDrain_keeps
  have hweb := (s.receiveFrame n 0x41 tag payload).runDrain_web
  have hreports := (s.receiveFrame n 0x41 tag payload).runDrain_reports
  rw [State.receiveFrame_web] at hweb
  refine ⟨_, exec_runDrain_ok hears hf hline, ?_, ?_, ?_, fun m => ⟨fun hm => ?_, ?_⟩, fun hqueued => ⟨?_, ?_, ?_, fun m => ?_⟩,
    fun hempty => ⟨?_, ?_, ?_, fun m hsees => ?_⟩, fun k => ?_⟩
  · have hframe := (s.receiveFrame n 0x41 tag payload).runDrain_eq
    generalize (s.receiveFrame n 0x41 tag payload).runDrain = t at *
    rw [hframe]
    unfold State.holdReply State.modPort
    rfl
  · exact State.holdReply_holdFollows (State.runDrain_holdFollows _)
  · rw [State.port_holdReply, if_pos rfl]
    rfl
  · obtain ⟨-, hserial⟩ := hkeeps m
    rw [State.port_receiveFrame, if_neg hm] at hserial
    rwa [State.port_holdReply, if_neg hm]
  · rw [State.enabled_holdReply, (hkeeps m).1, State.enabled_receiveFrame]
  · rw [State.holdReply_web, hweb, if_neg hqueued]
  · rw [State.holdReply_web, hweb, if_neg hqueued]
  · have hnone : (s.receiveFrame n 0x41 tag payload).drainReports = [] := if_neg hqueued
    rw [State.holdReply_reports, hreports, hnone, offeredTo_nil, State.receiveFrame_reports]
  · rw [State.latched_holdReply, State.runDrain_latched_queued (s := s.receiveFrame n 0x41 tag payload) hqueued,
      State.latched_receiveFrame]
  · rw [State.holdReply_web, hweb, if_pos hempty]
  · rw [State.holdReply_web, hweb, if_pos hempty]
  · have hall : (s.receiveFrame n 0x41 tag payload).drainReports
        = s.web.rolls.map fun r => Report.roll (rollReport .drain r) := if_pos hempty
    rw [State.holdReply_reports, hreports, hall]
    rfl
  · rw [State.latched_holdReply, State.runDrain_latched]
    exact .inr ⟨by rwa [State.role_receiveFrame], .inr (.inr ⟨hempty, rfl⟩)⟩
  · rw [State.screen_holdReply, State.screen_runDrain]
    have hscreen := (s.receiveFrame n 0x41 tag payload).draining_screen k
    unfold State.draining at hscreen
    rw [hscreen]
    refine ⟨rfl, fun hout => if_neg (by rw [State.receiveFrame_planned, hout]; decide), fun hin => ?_⟩
    have heng : ∀ e, (s.screen k).eng.lift s.web.nextSeq = e →
        (if inSet (s.receiveFrame n 0x41 tag payload).planned k = true then
          ((s.receiveFrame n 0x41 tag payload).screen k).eng.lift (s.receiveFrame n 0x41 tag payload).web.nextSeq
        else ((s.receiveFrame n 0x41 tag payload).screen k).eng) = e := fun e he => (if_pos hin).trans he
    exact ⟨fun h => heng _ (Engagement.lift_of_armed h), fun h => heng _ (Engagement.lift_of_lowering h),
      fun h => heng _ (Engagement.lift_of_printing h), fun h => heng _ (Engagement.lift_of_other h)⟩

end

section
/-! PROOFS. A drive cycle's channels, read off the states before and after it: which cross, which hands new ground over,
where each screen prints, and what each channel becomes. -/

namespace Sys2Proof.Machine

section
variable {s : State} {k : ScreenId} {u : State}

/-! ### The web's movement and the trims -/

theorem Screen.slew_same (x : Screen) :
    x.slew.present = x.present ∧ x.slew.eng = x.eng ∧ x.slew.last = x.last ∧ x.slew.chan.r = x.chan.r
      ∧ x.slew.chan.lcur = x.chan.lcur ∧ x.slew.chan.n = x.chan.n := by
  rw [Screen.slew_eq]
  exact ⟨rfl, rfl, rfl, rfl, rfl, rfl⟩

theorem Screen.slew_of_absent {x : Screen} (h : x.present = false) : x.slew = x := by
  unfold Screen.slew
  rw [if_neg (by rw [h]; decide)]

theorem State.advancePosition_pos (s : State) : s.advancePosition.pos = s.pos.advance := by
  unfold State.advancePosition
  rw [State.latchIf_pos, State.withPos_pos]

theorem State.slewAll_pos (s : State) : s.slewAll.pos = s.pos := by
  unfold State.slewAll
  rw [State.mapScreens_pos]

/-- ΔP is what P has moved by. -/
theorem State.driveCycle_moved (s : State) : s.driveCycle.pos.p - s.pos.p = s.pos.deltaP := by
  rw [State.driveCycle_pos, Position.advance_p]
  rfl

theorem Screen.window_trim (arriving : Nat) (x : Screen) : x.SameTrim (x.window arriving) := by
  rw [Screen.window_eq]
  exact {}

theorem Screen.formed_trim (x : Screen) : x.SameTrim x.formed := by
  rw [Screen.formed_eq]
  exact {}

theorem Screen.SameTrim.trans {x y z : Screen} (h1 : x.SameTrim y) (h2 : y.SameTrim z) : x.SameTrim z :=
  ⟨h2.present.trans h1.present, h2.kind.trans h1.kind, h2.ext.trans h1.ext, h2.applied.trans h1.applied⟩

theorem ScreensAdvance.trim {t : State} (h : ScreensAdvance s t) (k : ScreenId) : (s.screen k).SameTrim (t.screen k) := by
  rw [h k]
  exact {}

/-- After the slews a cycle leaves the trims. -/
theorem State.driveCycle_trim (s : State) (k : ScreenId) :
    (s.advancePosition.slewAll.screen k).SameTrim (s.driveCycle.screen k) := by
  rw [State.screen_driveCycle]
  exact ((ScreensAdvance.advanced s).trim k).trans ((Screen.window_trim _ _).trans (Screen.formed_trim _))

theorem Screen.window_dist (arriving : Nat) (x : Screen) : (x.window arriving).formed.dist = x.dist := by
  rw [Screen.formed_eq, Screen.window_eq]

theorem State.driveCycle_dist (s : State) (k : ScreenId) :
    (s.driveCycle.screen k).dist = (s.advancePosition.slewAll.screen k).dist := by
  rw [State.screen_driveCycle, Screen.window_dist, ScreensAdvance.advanced s k]

/-- Design coordinates are those of the moved web and the slewed trims. -/
theorem State.driveCycle_design (s : State) (k : ScreenId) :
    s.driveCycle.design k = s.advancePosition.slewAll.design k := by
  refine State.design_congr ?_ s.driveCycle_trim s.driveCycle_dist k
  rw [State.driveCycle_pos, State.slewAll_pos, State.advancePosition_pos]

/-- The Δw of channel k in the cycle (R36). -/
def State.cycleChange (s : State) (k : ScreenId) : Int :=
  s.pos.deltaP - (effTrim s.advancePosition.slewAll.screens k - effTrim s.advancePosition.screens k)

theorem State.cycleChange_eq (s : State) (k : ScreenId) :
    s.cycleChange k
      = (s.driveCycle.pos.p - s.pos.p) - (effTrim s.driveCycle.screens k - effTrim s.screens k) := by
  have hafter : effTrim s.driveCycle.screens k = effTrim s.advancePosition.slewAll.screens k :=
    effTrim_congr s.driveCycle_trim k
  have hbefore : effTrim s.advancePosition.screens k = effTrim s.screens k := by
    unfold State.advancePosition
    rw [State.latchIf_screens, State.withPos_screens]
  rw [State.driveCycle_moved, hafter, ← hbefore]
  rfl

/-! ### The state in which a channel advances -/

/-- Channel k of the cycle advances in state u. -/
abbrev State.CycleMeets (s : State) (k : ScreenId) (u : State) : Prop := s.advancePosition.Meets s.pos.deltaP k u

/-- The state after channel 0 of the cycle. -/
def State.keyed (s : State) : State := s.advancePosition.afterKey s.pos.deltaP

theorem State.keyed_eq (s : State) : s.keyed = s.advancePosition.slewAll.advanceChannel 0 (s.cycleChange 0) := by
  unfold State.keyed State.afterKey State.channelStep State.cycleChange
  with_reducible rfl

theorem State.keyed_screens (s : State) : ScreensAdvance s.advancePosition.slewAll s.keyed := by
  rw [State.keyed_eq]
  exact .advanceChannel 0 _ _

theorem State.keyed_pos (s : State) : s.keyed.pos = s.advancePosition.slewAll.pos := by
  rw [State.keyed_eq]
  exact (CycleOnly.advanceChannel 0 (s.cycleChange 0) s.advancePosition.slewAll).pos

theorem State.CycleMeets.screen (h : s.CycleMeets k u) : u.screen k = (s.screen k).slew := by
  rw [Meets.screen h, State.screen_slewAll, State.screen_advancePosition]

/-- The state in which a channel advances differs from the slewed one in no design coordinate. -/
theorem State.CycleMeets.places (h : s.CycleMeets k u) :
    ScreensAdvance s.advancePosition.slewAll u ∧ u.pos = s.advancePosition.slewAll.pos := by
  rcases h.before with ⟨-, rfl⟩ | ⟨-, hafter, -⟩
  · exact ⟨.refl _, rfl⟩
  · exact ⟨s.keyed_screens.trans hafter.screens, hafter.pos.trans s.keyed_pos⟩

theorem State.CycleMeets.design (h : s.CycleMeets k u) (j : ScreenId) : u.design j = s.driveCycle.design j := by
  obtain ⟨hscreens, hpos⟩ := State.CycleMeets.places h
  rw [State.driveCycle_design, hscreens.design (by rw [hpos])]

theorem State.advanced_design (s : State) (k : ScreenId) : s.advanced.design k = s.driveCycle.design k := by
  rw [State.driveCycle_design]
  exact (ScreensAdvance.advanced s).design (by rw [State.advanced_pos, State.slewAll_pos]) k

theorem State.CycleMeets.advanced_screen (h : s.CycleMeets k u) :
    s.advanced.screen k =
      if (s.screen k).present = true then u.advancedScreen k (s.cycleChange k) else s.screen k := by
  have hkept : s.advanced.screen k = (u.advanceChannel k (s.cycleChange k)).screen k := by
    have hkeeps := h.keeps.screen
    unfold State.channelStep at hkeeps
    unfold State.advanced State.cycleChange
    exact hkeeps
  have hpresent : (u.screen k).present = (s.screen k).present := by
    rw [State.CycleMeets.screen h, (Screen.slew_same _).1]
  rw [hkept, State.advanceChannel_screen, hpresent]
  by_cases hp : (s.screen k).present = true
  · rw [if_pos ⟨rfl, hp⟩, if_pos hp]
  · rw [if_neg fun hc => hp hc.2, if_neg hp, State.CycleMeets.screen h,
      Screen.slew_of_absent (Bool.eq_false_iff.mpr hp)]

/-! ### Which channels cross, and new ground (R36 to R38) -/

theorem State.crossesForward_iff :
    s.crossesForward s.driveCycle k ↔
      (s.screen k).present = true ∧ (s.screen k).chan.lcur ≤ (s.screen k).chan.r + s.cycleChange k := by
  rw [State.cycleChange_eq]

theorem State.CycleMeets.crosses (h : s.CycleMeets k u) :
    s.crossesForward s.driveCycle k ↔
      (u.screen k).present = true ∧ (u.screen k).chan.lcur ≤ (u.screen k).chan.r + s.cycleChange k := by
  obtain ⟨hpresent, -, -, hr, hlcur, -⟩ := (s.screen k).slew_same
  rw [State.crossesForward_iff, State.CycleMeets.screen h, hpresent, hr, hlcur]

theorem State.slewAll_phase (s : State) : s.slewAll.phase = s.phase := by
  unfold State.slewAll
  rw [State.mapScreens_phase]

theorem State.advancePosition_phase (s : State) : s.advancePosition.phase = s.phase := by
  unfold State.advancePosition
  rw [State.latchIf_phase, State.withPos_phase]

theorem State.newGround_iff (s : State) (k : ScreenId) :
    s.newGround k = true ↔ k = 0 ∧ s.web.lineState = .run ∧ s.phase.highWater < (s.screen 0).chan.n + 1 := by
  simp only [State.newGround, Bool.and_eq_true, beq_iff_eq, decide_eq_true_eq, and_assoc]

/-- New ground is handed over where channel 0 breaks it. -/
theorem State.handsNewGround_iff :
    s.handsNewGround s.driveCycle ↔ s.advancePosition.slewAll.breaksGround 0 (s.cycleChange 0) := by
  obtain ⟨hpresent, -, -, hr, hlcur, hn⟩ := (s.screen 0).slew_same
  unfold State.handsNewGround State.breaksGround
  rw [State.crossesForward_iff, State.newGround_iff, State.screen_slewAll, State.screen_advancePosition,
    State.slewAll_web, State.advancePosition_web, State.slewAll_phase, State.advancePosition_phase, hpresent, hr, hlcur, hn]
  simp only [true_and, and_assoc]

/-- The new ground of the cycle is the new ground of the channel that crosses. -/
theorem State.CycleMeets.ground (h : s.CycleMeets k u) (hcross : s.crossesForward s.driveCycle k) :
    u.newGround k = true ↔ s.onNewGround s.driveCycle k := by
  constructor
  · intro hground
    obtain rfl := State.newGround_key hground
    rcases h.before with ⟨-, rfl⟩ | ⟨h0, -⟩
    · exact ⟨rfl, State.handsNewGround_iff.mpr ⟨((State.CycleMeets.crosses h).mp hcross).1,
        ((State.CycleMeets.crosses h).mp hcross).2, hground⟩⟩
    · exact absurd rfl h0
  · rintro ⟨rfl, hground⟩
    rcases h.before with ⟨-, rfl⟩ | ⟨h0, -⟩
    · exact (State.handsNewGround_iff.mp hground).2.2
    · exact absurd rfl h0

end

end Sys2Proof.Machine
end

section
/-! PROOFS. What a drive cycle's later crossings and tests find in the Web Map: the creation's web, where channel 0 broke new
ground, else the web before the cycle, up to printed sets. -/

namespace Sys2Proof.Machine

/-! ### Reading a queue whose printed sets may differ -/

theorem find?_map_unprinted {α : Type} {q q' : List Segment} (h : unprinted q' = unprinted q) {pr : Segment → Bool}
    {f : Segment → α} (hpr : ∀ g, pr { g with printed := 0 } = pr g) (hf : ∀ g, f { g with printed := 0 } = f g) :
    (q'.find? pr).map f = (q.find? pr).map f := by
  have hread : ∀ l : List Segment, (l.find? pr).map f = ((unprinted l).find? pr).map f := by
    intro l
    unfold unprinted
    rw [List.find?_map, Option.map_map]
    have hpr' : (pr ∘ fun g : Segment => { g with printed := 0 }) = pr := funext hpr
    have hf' : (f ∘ fun g : Segment => { g with printed := 0 }) = f := funext hf
    rw [hpr', hf']
  rw [hread q', hread q, h]

/-- A state's Web Map is this one, up to the printed sets of its queue. -/
structure State.Finds (u : State) (w : WebMap) : Prop where
  web : u.web = { w with queue := u.web.queue }
  queue : unprinted u.web.queue = unprinted w.queue

section
variable {s u v : State} {w : WebMap} {k : ScreenId}

theorem State.Finds.of_eq (h : u.web = w) : u.Finds w := ⟨by rw [h], by rw [h]⟩

theorem State.Finds.advance (h : u.Finds w) (ho : AdvanceOnly u v) : v.Finds w where
  web := by
    have hweb : v.web = { u.web with queue := v.web.queue } := by rw [ho.frame]
    rw [hweb, h.web]
  queue := ho.queue.trans h.queue

theorem State.Finds.nextSeq (h : u.Finds w) : u.web.nextSeq = w.nextSeq := by rw [h.web]

theorem State.Finds.lineState (h : u.Finds w) : u.web.lineState = w.lineState := by rw [h.web]

theorem State.Finds.rolls (h : u.Finds w) : u.web.rolls = w.rolls := by rw [h.web]

theorem State.Finds.seqAt (h : u.Finds w) (c : Int) :
    (containing u.web.queue c).map Segment.seq = (containing w.queue c).map Segment.seq :=
  find?_map_unprinted h.queue (fun _ => rfl) fun _ => rfl

theorem State.Finds.lengthAt (h : u.Finds w) (c : Int) :
    (containing u.web.queue c).map Segment.length = (containing w.queue c).map Segment.length :=
  find?_map_unprinted h.queue (fun _ => rfl) fun _ => rfl

theorem arrivingSeq_eq (u : State) (c : Int) :
    arrivingSeq u c = ((u.web.queue.find? fun g => decide (c < g.start)).map Segment.seq).getD u.web.nextSeq := by
  unfold arrivingSeq
  cases u.web.queue.find? fun g => decide (c < g.start) <;> rfl

theorem State.Finds.arriving (h : u.Finds w) (c : Int) :
    arrivingSeq u c = ((w.queue.find? fun g => decide (c < g.start)).map Segment.seq).getD w.nextSeq := by
  rw [arrivingSeq_eq, h.nextSeq]
  have hfound : (u.web.queue.find? fun g => decide (c < g.start)).map Segment.seq
      = (w.queue.find? fun g => decide (c < g.start)).map Segment.seq :=
    find?_map_unprinted h.queue (fun _ => rfl) fun _ => rfl
  rw [hfound]

/-! ### The creation that a cycle makes (R38, R95) -/

/-- Channel 0 forward into new ground, before Engagement Control hears of it (R37, R38). -/
def State.keyAdvanced (r : Int) (s : State) : State :=
  let s1 := s.modChan 0 (Channel.forward r s.phase.lFab)
  s1.withPhase { s1.phase with highWater := (s1.screen 0).chan.n }

theorem State.keyAdvanced_eq (r : Int) (s : State) : s.keyAdvanced r =
    (s.withScreens (s.screens.set 0 { s.screen 0 with chan := (s.screen 0).chan.forward r s.phase.lFab })).withPhase
      { s.phase with highWater := (s.screen 0).chan.n + 1 } := by
  have hn : ((s.modChan 0 (Channel.forward r s.phase.lFab)).screen 0).chan.n = (s.screen 0).chan.n + 1 := by
    rw [State.screen_modChan, if_pos rfl]
    rfl
  unfold State.keyAdvanced
  dsimp only
  rw [hn]
  rfl

/-- The state in which channel 0, crossing into new ground, asks for a creation. -/
def State.keyFound (r : Int) (s : State) : State := (s.keyAdvanced r).cross 0 true

theorem State.keyCrossing_eq (r : Int) (s : State) : s.keyCrossing r = (s.keyFound r).create := by
  unfold State.keyCrossing State.keyFound State.keyAdvanced
  with_reducible rfl

/-- A crossing into new ground marks no segment. -/
theorem State.cross_true_web (k : ScreenId) (s : State) : (s.cross k true).web = s.web := by
  have hqueue := s.cross_queue k true
  rw [if_neg (by simp)] at hqueue
  rw [(EngOnly.cross k true s).frame, hqueue]

/-- Channel 0's crossing changes screens, fault entries, the high-water mark and latched sets before it asks for a
creation. -/
theorem State.keyFound_frame (r : Int) (s : State) :
    s.keyFound r = { s with
      screens := (s.keyFound r).screens, phase := { s.phase with highWater := (s.screen 0).chan.n + 1 },
      ring := { s.ring with faults := (s.keyFound r).ring.faults }, ports := (s.keyFound r).ports } := by
  have hframe := (EngOnly.cross 0 true (s.keyAdvanced r)).frame
  rw [State.cross_true_web] at hframe
  have hadvanced := State.keyAdvanced_eq r s
  unfold State.keyFound
  generalize s.keyAdvanced r = a at hframe hadvanced ⊢
  generalize a.cross 0 true = b at hframe ⊢
  rw [hframe, hadvanced]
  rfl

theorem State.keyFound_latches (r : Int) (s : State) : Latches s (s.keyFound r) := by
  refine .trans (.of_ports ?_) (EngOnly.cross 0 true (s.keyAdvanced r)).latches
  rw [State.keyAdvanced_eq, State.withPhase_ports, State.withScreens_ports]

theorem State.keyFound_screenFault (r : Int) (s : State) : LatchesOnly [.screenFault] s (s.keyFound r) := by
  refine (LatchesOnly.trans (K := []) (.of_ports ?_) (.cross 0 true (s.keyAdvanced r)))
  rw [State.keyAdvanced_eq, State.withPhase_ports, State.withScreens_ports]

/-! ### A cycle's creation, from the states before and after the cycle -/

theorem State.key_meets (s : State) : s.CycleMeets 0 s.advancePosition.slewAll := by
  obtain ⟨u, hu⟩ := s.advancePosition.exists_meets s.pos.deltaP 0
  rcases hu.before with ⟨-, rfl⟩ | ⟨hne, -⟩
  · exact hu
  · exact absurd rfl hne

theorem State.advanced_of_keyed (s : State) : AdvanceOnly s.keyed s.advanced ∧ KeepsScreen 0 s.keyed s.advanced :=
  ⟨s.key_meets.after, s.key_meets.keeps⟩

/-- Where channel 0 asks for a creation in a cycle that hands new ground over. -/
def State.creationPoint (s : State) : State :=
  s.advancePosition.slewAll.keyFound ((s.advancePosition.slewAll.screen 0).chan.r + s.cycleChange 0)

theorem State.keyed_of_ground (h : s.handsNewGround s.driveCycle) : s.keyed = s.creationPoint.create := by
  rw [State.keyed_eq, State.advanceChannel_of_breaks (State.handsNewGround_iff.mp h), State.keyCrossing_eq]
  unfold State.creationPoint
  with_reducible rfl

theorem State.keyed_of_no_ground (h : ¬ s.handsNewGround s.driveCycle) : AdvanceOnly s.advancePosition.slewAll s.keyed := by
  rw [State.keyed_eq]
  exact .advanceChannel fun hbreaks => h (State.handsNewGround_iff.mpr hbreaks)

/-- The state that `afterCreation` lets create. -/
def State.creationBase (s t : State) : State := { s with pos := t.pos, screens := t.screens }

theorem State.afterCreation_eq (s t : State) : s.afterCreation t = (s.creationBase t).create := rfl

theorem Screen.formed_window_chan (arriving : Nat) (x : Screen) :
    (x.window arriving).formed.chan.r = x.chan.r ∧ (x.window arriving).formed.chan.lcur = x.chan.lcur
    ∧ (x.window arriving).formed.chan.n = x.chan.n := by
  rw [Screen.formed_eq, Screen.window_eq]
  exact ⟨rfl, rfl, rfl⟩

theorem State.driveCycle_chan (s : State) (k : ScreenId) :
    (s.driveCycle.screen k).chan.r = (s.advanced.screen k).chan.r
    ∧ (s.driveCycle.screen k).chan.lcur = (s.advanced.screen k).chan.lcur
    ∧ (s.driveCycle.screen k).chan.n = (s.advanced.screen k).chan.n := by
  rw [State.screen_driveCycle]
  exact Screen.formed_window_chan _ _

theorem Screen.window_printing (arriving : Nat) (x : Screen) :
    (x.window arriving).eng.state = .printing ↔ x.eng.state = .printing := by
  unfold Screen.window
  split_ifs with harmed <;> simp_all

theorem State.slewed_frame (s : State) : s.advancePosition.slewAll = { s with
    pos := s.pos.advance, screens := s.advancePosition.slewAll.screens, ports := s.advancePosition.ports } := by
  unfold State.advancePosition State.slewAll State.mapScreens
  cases s.pos.motionClamp <;> rfl

theorem State.slewed_latches (s : State) : Latches s s.advancePosition.slewAll := by
  refine .trans (t := s.advancePosition) ?_ (.of_ports ?_)
  · exact .trans (.of_ports rfl) (WebOnly.latchIf _ _ (s.withPos s.pos.advance)).2
  · exact State.mapScreens_ports _ _

theorem State.slewed_motionClamp (s : State) : LatchesOnly [.motionClamp] s s.advancePosition.slewAll :=
  ((LatchesOnly.of_ports (K := []) rfl).trans (.latchIf s.pos.motionClamp .motionClamp (s.withPos s.pos.advance))).trans
    (.mapScreens _ s.advancePosition)

theorem SameCreation.of_frame {a c t : State} {x : Position}
    (hframe : c = { s with
      pos := x, screens := c.screens, phase := { s.phase with highWater := c.phase.highWater }
      ring := { s.ring with faults := c.ring.faults }, ports := c.ports })
    (hlatches : Latches s c) (hpos : t.pos.p = x.p) (hr : (t.screen 0).chan.r = (a.screen 0).chan.r)
    (hlcur : (t.screen 0).chan.lcur = (a.screen 0).chan.lcur) (hscreen : a.screen 0 = c.screen 0)
    (hprinting : (t.screen 0).eng.state = .printing ↔ (a.screen 0).eng.state = .printing) :
    SameCreation (s.creationBase t) c where
  web := by rw [hframe]; rfl
  reports := by rw [hframe]; rfl
  line := by rw [hframe]; rfl
  cure := by rw [hframe]; rfl
  stretch := by rw [hframe]; rfl
  planned := by rw [hframe]; rfl
  p := by rw [hframe]; exact hpos.symm
  r := by rw [← hscreen]; exact hr.symm
  lcur := by rw [← hscreen]; exact hlcur.symm
  printing := by
    unfold State.engState
    rw [← hscreen]
    exact hprinting.symm
  roles n := by rw [(hlatches n).1]; rfl

/-- A creation reads the same before the rest of the cycle as after it. -/
theorem State.sameCreation (h : s.handsNewGround s.driveCycle) : SameCreation (s.creationBase s.driveCycle) s.creationPoint := by
  have hscreen : s.advanced.screen 0 = s.creationPoint.screen 0 := by
    rw [s.advanced_of_keyed.2.screen, State.keyed_of_ground h]
    exact (WebOnly.create s.creationPoint).screen 0
  obtain ⟨hr, hlcur, -⟩ := s.driveCycle_chan 0
  have hprinting : (s.driveCycle.screen 0).eng.state = .printing ↔ (s.advanced.screen 0).eng.state = .printing := by
    rw [State.screen_driveCycle, Screen.formed_eng, Screen.window_printing]
  have hpos : s.driveCycle.pos.p = s.pos.advance.p := by rw [State.driveCycle_pos]
  have hframe : s.creationPoint = { s with
      pos := s.pos.advance, screens := s.creationPoint.screens
      phase := { s.phase with highWater := s.creationPoint.phase.highWater }
      ring := { s.ring with faults := s.creationPoint.ring.faults }, ports := s.creationPoint.ports } := by
    have hkey := State.keyFound_frame
      ((s.advancePosition.slewAll.screen 0).chan.r + s.cycleChange 0) s.advancePosition.slewAll
    have hslewed := s.slewed_frame
    unfold State.creationPoint
    generalize s.advancePosition.slewAll = v at hkey hslewed ⊢
    generalize v.keyFound _ = c at hkey ⊢
    rw [hkey, hslewed]
  have hlatches : Latches s s.creationPoint := s.slewed_latches.trans (State.keyFound_latches _ _)
  exact .of_frame hframe hlatches hpos hr hlcur hscreen hprinting

end
end Sys2Proof.Machine
end

section
/-! PROOFS. The Web Map, the reports and the latched sets that the later channels and the tests of a drive cycle find. -/

namespace Sys2Proof.Machine

section
variable {s : State} {k : ScreenId} {u : State}

/-! ### Latched kinds -/

/-- An advance that hands no new ground over latches SCREEN_FAULT alone. -/
theorem LatchesOnly.quietChannel {dw : Int} (hground : ¬ s.breaksGround k dw) :
    LatchesOnly [.screenFault] s (s.advanceChannel k dw) := by
  rcases State.advanceChannel_cases k dw s with ⟨-, h⟩ | ⟨hp, hle, h⟩ | ⟨-, -, -, h⟩ | ⟨-, -, -, h⟩ <;> rw [h]
  · exact .refl _ s
  · rw [if_neg fun hnew => hground ⟨hp, hle, hnew⟩]
    exact (LatchesOnly.modChan k _ s).trans (.cross k false _)
  · exact (LatchesOnly.modChan k _ s).mono (by decide)
  · exact (LatchesOnly.modChan k _ s).mono (by decide)

theorem LatchesOnly.quietFold {deltaP : Int} {l : List ScreenId} (h : ∀ j ∈ l, j ≠ 0) (u : State) :
    LatchesOnly [.screenFault] u (l.foldl (s.channelStep deltaP) u) := by
  induction l generalizing u with
  | nil => exact .refl _ u
  | cons j l ih =>
    have hstep : LatchesOnly [.screenFault] u (s.channelStep deltaP u j) :=
      .quietChannel (State.not_breaksGround_of_ne (h j List.mem_cons_self) _ _)
    exact (hstep.trans (ih (fun i hi => h i (List.mem_cons_of_mem _ hi)) _)).mono (by decide)

theorem State.advanced_latches (s : State) : LatchesOnly [.screenFault] s.keyed s.advanced := by
  unfold State.advanced State.keyed
  rw [State.advanceChannels_afterKey]
  exact .quietFold (fun j hj => mem_otherScreens.mp hj) _

/-! ### What the crossings and the tests find -/

theorem State.creationBase_port (s t : State) (n : PortId) : (s.creationBase t).port n = s.port n := rfl

theorem AdvanceOnly.phase {t : State} (h : AdvanceOnly s t) : t.phase = s.phase := by rw [h.frame]

theorem State.slewed_web (s : State) : s.advancePosition.slewAll.web = s.web := by rw [s.slewed_frame]


theorem State.keyed_found (s : State) : s.keyed.Finds (s.webFound s.driveCycle)
    ∧ s.keyed.reports = (s.found s.driveCycle).reports
    ∧ LatchesOnly [.motionClamp, .screenFault] (s.found s.driveCycle) s.keyed := by
  have hslewed : s.advancePosition.slewAll.web = s.web ∧ s.advancePosition.slewAll.reports = s.reports := by
    rw [s.slewed_frame]
    exact ⟨rfl, rfl⟩
  unfold State.webFound
  rcases s.found_cases s.driveCycle with ⟨hground, hfound⟩ | ⟨hground, hfound⟩ <;> rw [hfound]
  · obtain ⟨hweb, hreports, kinds, hbase, hkeyed⟩ := (State.sameCreation hground).create
    rw [State.afterCreation_eq, State.keyed_of_ground hground]
    refine ⟨.of_eq hweb, hreports, fun e he n => ?_⟩
    have hpoint : LatchesOnly [.motionClamp, .screenFault] s s.creationPoint :=
      s.slewed_motionClamp.trans (State.keyFound_screenFault _ _)
    rw [hbase, hkeyed, hpoint e he n, State.creationBase_port]
  · have hadvance := State.keyed_of_no_ground hground
    have hreports : s.keyed.reports = s.advancePosition.slewAll.reports := by rw [hadvance.frame]
    refine ⟨.advance (.of_eq hslewed.1) hadvance, hreports.trans hslewed.2, ?_⟩
    refine s.slewed_motionClamp.trans ?_
    rw [State.keyed_eq]
    exact .quietChannel fun hbreaks => hground (State.handsNewGround_iff.mpr hbreaks)

theorem State.advanced_finds (s : State) : s.advanced.Finds (s.webFound s.driveCycle) :=
  s.keyed_found.1.advance s.advanced_of_keyed.1

theorem State.advanced_reports (s : State) : s.advanced.reports = (s.found s.driveCycle).reports := by
  rw [s.advanced_of_keyed.1.frame, ← s.keyed_found.2.1]

theorem State.advanced_found_latches (s : State) :
    LatchesOnly [.motionClamp, .screenFault] (s.found s.driveCycle) s.advanced :=
  (s.keyed_found.2.2.trans s.advanced_latches).mono (by decide)

/-- A channel that does not break new ground finds that Web Map. -/
theorem State.CycleMeets.finds (h : s.CycleMeets k u) (hground : ¬ s.onNewGround s.driveCycle k) :
    u.Finds (s.webFound s.driveCycle) := by
  rcases h.before with ⟨rfl, rfl⟩ | ⟨-, hafter, -⟩
  · have hfound : s.found s.driveCycle = s := if_neg fun hnew => hground ⟨rfl, hnew⟩
    refine .of_eq ?_
    unfold State.webFound
    rw [hfound, s.slewed_web]
  · exact s.keyed_found.1.advance hafter

/-- The printed bits of screen k stand there as found, until its own channel advances. -/
theorem State.CycleMeets.marks (h : s.CycleMeets k u) (hground : ¬ s.onNewGround s.driveCycle k) :
    marksOf k u.web.queue = marksOf k (s.webFound s.driveCycle).queue := by
  rcases h.before with ⟨rfl, rfl⟩ | ⟨hne, -, hkeeps⟩
  · have hfound : s.found s.driveCycle = s := if_neg fun hnew => hground ⟨rfl, hnew⟩
    unfold State.webFound
    rw [hfound, s.slewed_web]
  · have hkeyed : KeepsScreen k s.keyed u := hkeeps
    rw [hkeyed.marks]
    unfold State.webFound
    rcases s.found_cases s.driveCycle with ⟨hnew, hfound⟩ | ⟨hnew, hfound⟩ <;> rw [hfound]
    · obtain ⟨hweb, -⟩ := (State.sameCreation hnew).create
      rw [State.keyed_of_ground hnew, hweb, State.afterCreation_eq]
    · have hkept : KeepsScreen k s.advancePosition.slewAll s.keyed := by
        rw [State.keyed_eq]
        exact .advanceChannel hne fun hbreaks => hnew (State.handsNewGround_iff.mpr hbreaks)
      rw [hkept.marks, s.slewed_web]

/-! ### The channel's length and the seqs it reads (R40, R54) -/

/-- The phase registers that a channel reads are those before the cycle. -/
theorem State.CycleMeets.lFab (h : s.CycleMeets k u) : u.phase.lFab = s.phase.lFab := by
  have hslewed : s.advancePosition.slewAll.phase = s.phase := by rw [s.slewed_frame]
  rcases h.before with ⟨-, rfl⟩ | ⟨-, hafter, -⟩
  · rw [hslewed]
  · have hkeyed : s.keyed.phase.lFab = s.phase.lFab := by
      rw [State.keyed_eq, (CycleOnly.advanceChannel 0 _ _).1, hslewed]
    have hphase : u.phase = s.keyed.phase := AdvanceOnly.phase hafter
    rw [hphase, hkeyed]

theorem State.CycleMeets.crossingLength (h : s.CycleMeets k u)
    (hcross : s.crossesForward s.driveCycle k) (hground : s.onNewGround s.driveCycle k) :
    u.crossingLength k (s.cycleChange k) = s.phase.lFab := by
  unfold State.crossingLength
  rw [if_pos ⟨((State.CycleMeets.crosses h).mp hcross).2, (State.CycleMeets.ground h hcross).mpr hground⟩,
    State.CycleMeets.lFab h]

/-- Elsewhere a crossing takes the length of the segment under the screen, or L_fab (R40). -/
theorem State.CycleMeets.lengthUnder (h : s.CycleMeets k u) (hpresent : (s.screen k).present = true)
    (hground : ¬ s.onNewGround s.driveCycle k) :
    u.crossingLength k (s.cycleChange k)
      = ((containing (s.webFound s.driveCycle).queue (s.driveCycle.design k)).map Segment.length).getD s.phase.lFab := by
  have hpresent' : (u.screen k).present = true := by
    rw [State.CycleMeets.screen h, (Screen.slew_same _).1, hpresent]
  unfold State.crossingLength State.lengthUnder
  rw [if_neg, State.CycleMeets.lFab h, State.CycleMeets.design h, (State.CycleMeets.finds h hground).lengthAt]
  rintro ⟨hle, hnew⟩
  have hcross := (State.CycleMeets.crosses h).mpr ⟨hpresent', hle⟩
  exact hground ((State.CycleMeets.ground h hcross).mp hnew)

/-- The seq that a forward crossing enters (R54). -/
theorem State.CycleMeets.entered (h : s.CycleMeets k u) (hcross : s.crossesForward s.driveCycle k) :
    u.enteredSeq k (u.newGround k) = s.entered s.driveCycle k := by
  unfold State.enteredSeq State.entered
  by_cases hnew : s.onNewGround s.driveCycle k
  · rw [if_pos ((State.CycleMeets.ground h hcross).mpr hnew), if_pos hnew]
    rcases h.before with ⟨-, rfl⟩ | ⟨hne, -⟩
    · rw [s.slewed_web]
    · exact absurd hnew.1 hne
  · have hfinds := State.CycleMeets.finds h hnew
    rw [if_neg fun hground => hnew ((State.CycleMeets.ground h hcross).mp hground), if_neg hnew, hfinds.seqAt,
      hfinds.nextSeq, State.CycleMeets.design h]

theorem State.advanced_arriving (s : State) (k : ScreenId) :
    arrivingSeq s.advanced (s.advanced.design k) = s.arriving s.driveCycle k := by
  rw [s.advanced_finds.arriving, State.advanced_design]
  rfl

end
end Sys2Proof.Machine
end

section
/-! PROOFS. The channels after a drive cycle, and their statement. -/

namespace Sys2Proof.Machine

/-- A present screen's channel after a cycle: slewed, advanced to `rho` with this length at a crossing, and its setpoint
formed (R35 to R42). -/
def Screen.cycledChan (x : Screen) (rho length : Int) : Channel :=
  let c := x.slew.chan.advanced rho length
  { c with setpoint := c.r * c.gear / 65536 }

section
variable {x : Screen} {rho length : Int}

theorem Screen.slew_chan (h : x.present = true) :
    x.slew.chan = { x.chan with applied := slewed x.chan.applied x.chan.target x.tuning.slew } := by
  unfold Screen.slew
  rw [if_pos h]

theorem slewed_of_near {applied target slew : Int} (h : (target - applied).natAbs ≤ slew) :
    slewed applied target slew = target :=
  if_pos (by omega)

theorem slewed_of_far {applied target slew : Int} (h : slew < (target - applied).natAbs) :
    slewed applied target slew = if applied < target then applied + slew else applied - slew :=
  if_neg (by omega)

/-- The trim registers of the channel: the applied trim has slewed, the others stand. -/
theorem Screen.cycledChan_trim (h : x.present = true) :
    (x.cycledChan rho length).target = x.chan.target ∧ (x.cycledChan rho length).lastCorrected = x.chan.lastCorrected
    ∧ (x.cycledChan rho length).applied = slewed x.chan.applied x.chan.target x.tuning.slew := by
  unfold Screen.cycledChan
  rw [Channel.advanced_eq, Screen.slew_chan h]
  exact ⟨rfl, rfl, rfl⟩

theorem Screen.cycledChan_forward (h : x.present = true) (hcross : x.chan.lcur ≤ rho) :
    (x.cycledChan rho length).r = rho - x.chan.lcur ∧ (x.cycledChan rho length).n = x.chan.n + 1
    ∧ (x.cycledChan rho length).lcur = length ∧ (x.cycledChan rho length).gear = gearOf length := by
  unfold Screen.cycledChan Channel.advanced
  rw [Screen.slew_chan h, if_pos (by exact hcross)]
  exact ⟨rfl, rfl, rfl, rfl⟩

theorem Screen.cycledChan_backward (h : x.present = true) (hcross : rho < x.chan.lcur) (hback : rho < 0) :
    (x.cycledChan rho length).r = rho + length ∧ (x.cycledChan rho length).n = x.chan.n - 1
    ∧ (x.cycledChan rho length).lcur = length ∧ (x.cycledChan rho length).gear = gearOf length := by
  unfold Screen.cycledChan Channel.advanced
  rw [Screen.slew_chan h, if_neg (by exact not_le.mpr hcross), if_pos hback]
  exact ⟨rfl, rfl, rfl, rfl⟩

theorem Screen.cycledChan_stay (h : x.present = true) (hcross : rho < x.chan.lcur) (hback : 0 ≤ rho) :
    (x.cycledChan rho length).r = rho ∧ (x.cycledChan rho length).n = x.chan.n
    ∧ (x.cycledChan rho length).lcur = x.chan.lcur ∧ (x.cycledChan rho length).gear = x.chan.gear := by
  unfold Screen.cycledChan Channel.advanced
  rw [Screen.slew_chan h, if_neg (by exact not_le.mpr hcross), if_neg (not_lt.mpr hback)]
  exact ⟨rfl, rfl, rfl, rfl⟩

/-- A crossing of either direction takes the length that it is given (R37, R39). -/
theorem Screen.cycledChan_crossing (h : x.present = true) (hcross : x.chan.lcur ≤ rho ∨ rho < 0) :
    (x.cycledChan rho length).lcur = length ∧ (x.cycledChan rho length).gear = gearOf length := by
  by_cases hforward : x.chan.lcur ≤ rho
  · exact (Screen.cycledChan_forward h hforward).2.2
  · exact (Screen.cycledChan_backward h (not_le.mp hforward) (hcross.resolve_left hforward)).2.2

end

section
variable {s u : State} {k : ScreenId}

theorem State.driveCycle_absent (h : (s.screen k).present = false) : (s.driveCycle.screen k).chan = (s.screen k).chan := by
  obtain ⟨u, hu⟩ := s.advancePosition.exists_meets s.pos.deltaP k
  have hscreen : s.advanced.screen k = s.screen k := by
    rw [State.CycleMeets.advanced_screen hu, if_neg (by rw [h]; decide)]
  rw [State.screen_driveCycle, hscreen]
  unfold Screen.formed
  rw [Screen.window_eq, if_neg (by rw [h]; decide)]

theorem State.CycleMeets.channel (hu : s.CycleMeets k u) (h : (s.screen k).present = true) :
    (s.driveCycle.screen k).chan = (s.screen k).cycledChan ((s.screen k).chan.r + s.cycleChange k)
      (u.crossingLength k (s.cycleChange k)) := by
  have hscreen : s.advanced.screen k = u.advancedScreen k (s.cycleChange k) := by
    rw [State.CycleMeets.advanced_screen hu, if_pos h]
  have hu' := State.CycleMeets.screen hu
  obtain ⟨hpresent, -, -, hr, -, -⟩ := (s.screen k).slew_same
  unfold Screen.cycledChan
  rw [State.screen_driveCycle, hscreen, Screen.formed, Screen.window_eq]
  unfold State.advancedScreen
  dsimp only
  rw [hu', if_pos (hpresent.trans h), hr]

end

end Sys2Proof.Machine

/-! ### The statements -/

open Sys2Proof Sys2Proof.Machine

/-- Settles O7: each channel advances in a state that holds its slewed screen and, up to printed sets, the Web Map that
the statement reads; the cases are those of the accumulator. -/
theorem driveCycleAdvancesChannels : Obligations.DriveCycleAdvancesChannels := by
  unfold Obligations.DriveCycleAdvancesChannels
  intro s hrun
  refine ⟨_, exec_driveCycle_running s hrun, fun k => ⟨State.driveCycle_absent, fun hpresent => ?_⟩⟩
  obtain ⟨u, hu⟩ := s.advancePosition.exists_meets s.pos.deltaP k
  obtain ⟨htarget, hlast, happlied⟩ := Screen.cycledChan_trim (rho := (s.screen k).chan.r + s.cycleChange k)
    (length := u.crossingLength k (s.cycleChange k)) hpresent
  have hchan := State.CycleMeets.channel hu hpresent
  refine ⟨(s.screen k).chan, (s.screen k).cycledChan ((s.screen k).chan.r + s.cycleChange k)
    (u.crossingLength k (s.cycleChange k)), (s.screen k).chan.r + s.cycleChange k, rfl, hchan.symm,
    congrArg _ (State.cycleChange_eq s k), htarget, hlast, fun hnear => happlied.trans (slewed_of_near hnear),
    fun hfar => happlied.trans (slewed_of_far hfar), fun hcross => ?_, fun hcross hback => ?_, fun hcross hback => ?_,
    fun hcross => ?_, rfl⟩
  · obtain ⟨hr, hn, -⟩ := Screen.cycledChan_forward (length := u.crossingLength k (s.cycleChange k)) hpresent hcross
    exact ⟨hr, hn⟩
  · obtain ⟨hr, hn, hlcur, -⟩ :=
      Screen.cycledChan_backward (length := u.crossingLength k (s.cycleChange k)) hpresent hcross hback
    exact ⟨by rw [hr, hlcur], hn⟩
  · exact Screen.cycledChan_stay hpresent hcross hback
  · obtain ⟨hlcur, hgear⟩ :=
      Screen.cycledChan_crossing (length := u.crossingLength k (s.cycleChange k)) hpresent hcross
    refine ⟨by rw [hlcur, hgear]; rfl, fun hground => ?_, fun hground => ?_⟩
    · obtain ⟨rfl, hnew⟩ := hground
      rw [hlcur, State.CycleMeets.crossingLength hu hnew.1 ⟨rfl, hnew⟩]
    · rw [hlcur, State.CycleMeets.lengthUnder hu hpresent hground]
end

section
/-! PROOFS. The engagement states after a drive cycle: the crossing, the lead window, the fault of a late drive, and their
statement. -/

namespace Sys2Proof.Machine

/-! ### The cases of a crossing and of the lead window (R59 to R63) -/

section
variable {x : Screen} {n : Nat}

theorem Screen.crossed_of_unmoved (h : x.eng.state ≠ .lowering) (h' : x.eng.state ≠ .ending) : x.crossed n = x.eng := by
  unfold Screen.crossed
  cases hstate : x.eng.state <;> simp_all

theorem Screen.crossed_of_ending (h : x.eng.state = .ending) :
    x.crossed n = if x.eng.stopSeq ≤ n then { x.eng with state := .parked } else x.eng := by
  unfold Screen.crossed
  rw [h]

theorem Screen.crossed_of_lowering (h : x.eng.state = .lowering) :
    x.crossed n = if isLowered x.last then { x.eng with state := .printing } else x.eng.fault .late := by
  unfold Screen.crossed
  rw [h]

theorem isLowered_iff (last : Option DriveReply) : isLowered last = true ↔ last.map DriveReply.state = some .lowered := by
  cases last with
  | none => decide
  | some r => simp [isLowered]

theorem Screen.slew_crossed (x : Screen) (n : Nat) : x.slew.crossed n = x.crossed n := by
  obtain ⟨-, heng, hlast, -⟩ := x.slew_same
  unfold Screen.crossed
  rw [heng, hlast]

theorem Screen.window_of_unarmed (h : x.eng.state ≠ .armed) : x.window n = x := if_pos h

theorem Screen.window_outside (h : x.eng.state = .armed) (hr : x.chan.r < x.chan.lcur - x.tuning.lead) :
    (x.window n).eng = { x.eng with window := true } := by
  unfold Screen.window
  rw [if_neg (not_not.mpr h), if_pos hr]

theorem Screen.window_inside (h : x.eng.state = .armed) (hr : x.chan.lcur - x.tuning.lead ≤ x.chan.r) :
    (x.window n).eng = if x.eng.window = true ∧ x.eng.startSeq ≤ n then { x.eng with state := .lowering, window := false }
      else x.eng := by
  unfold Screen.window
  rw [if_neg (not_not.mpr h), if_neg (not_lt.mpr hr)]
  split_ifs <;> rfl

end

section
variable {s u : State} {k : ScreenId}

/-! ### The engagement record after the channels have advanced -/

theorem State.CycleMeets.crossed (hu : s.CycleMeets k u) (hcross : s.crossesForward s.driveCycle k) :
    (s.advanced.screen k).eng = (s.screen k).crossed (s.entered s.driveCycle k) := by
  have hle : (u.screen k).chan.lcur ≤ (u.screen k).chan.r + s.cycleChange k :=
    ((State.CycleMeets.crosses hu).mp hcross).2
  rw [State.CycleMeets.advanced_screen hu, if_pos hcross.1]
  unfold State.advancedScreen
  dsimp only
  rw [if_pos hle, State.CycleMeets.entered hu hcross, State.CycleMeets.screen hu, Screen.slew_crossed]

theorem State.CycleMeets.uncrossed (hu : s.CycleMeets k u) (hcross : ¬ s.crossesForward s.driveCycle k) :
    (s.advanced.screen k).eng = (s.screen k).eng := by
  rw [State.CycleMeets.advanced_screen hu]
  split_ifs with hpresent
  · obtain ⟨hpresent', heng, -⟩ := (s.screen k).slew_same
    unfold State.advancedScreen
    dsimp only
    rw [if_neg, State.CycleMeets.screen hu, heng]
    intro hle
    refine hcross ((State.CycleMeets.crosses hu).mpr ⟨?_, hle⟩)
    rw [State.CycleMeets.screen hu, hpresent', hpresent]
  · rfl

/-- A screen that is neither LOWERING nor ENDING keeps its record at a crossing. -/
theorem State.advanced_eng_of_unmoved (h : s.engState k ≠ .lowering) (h' : s.engState k ≠ .ending) :
    (s.advanced.screen k).eng = (s.screen k).eng := by
  obtain ⟨u, hu⟩ := s.advancePosition.exists_meets s.pos.deltaP k
  by_cases hcross : s.crossesForward s.driveCycle k
  · rw [State.CycleMeets.crossed hu hcross, Screen.crossed_of_unmoved h h']
  · exact State.CycleMeets.uncrossed hu hcross

/-! ### The engagement record after the cycle -/

theorem State.driveCycle_eng (s : State) (k : ScreenId) :
    (s.driveCycle.screen k).eng = ((s.advanced.screen k).window (s.arriving s.driveCycle k)).eng := by
  rw [State.screen_driveCycle, Screen.formed_eng, State.advanced_arriving]

theorem State.driveCycle_eng_of_unarmed (h : (s.advanced.screen k).eng.state ≠ .armed) :
    (s.driveCycle.screen k).eng = (s.advanced.screen k).eng := by
  rw [State.driveCycle_eng, Screen.window_of_unarmed h]

/-- A screen with nothing to do at a crossing or in a window keeps its record. -/
theorem State.driveCycle_eng_idle
    (h : s.engState k = .absent ∨ s.engState k = .parked ∨ s.engState k = .printing ∨ s.engState k = .faulted) :
    (s.driveCycle.screen k).eng = (s.screen k).eng := by
  have hstates : s.engState k ≠ .lowering ∧ s.engState k ≠ .ending ∧ s.engState k ≠ .armed := by
    rcases h with h | h | h | h <;> rw [h] <;> decide
  obtain ⟨hlowering, hending, harmed⟩ := hstates
  have heng := State.advanced_eng_of_unmoved hlowering hending
  rw [State.driveCycle_eng_of_unarmed (by rw [heng]; exact harmed), heng]

theorem State.driveCycle_eng_uncrossed (h : s.engState k ≠ .armed) (hcross : ¬ s.crossesForward s.driveCycle k) :
    (s.driveCycle.screen k).eng = (s.screen k).eng := by
  obtain ⟨u, hu⟩ := s.advancePosition.exists_meets s.pos.deltaP k
  have heng := State.CycleMeets.uncrossed hu hcross
  rw [State.driveCycle_eng_of_unarmed (by rw [heng]; exact h), heng]

theorem State.driveCycle_eng_ending (h : s.engState k = .ending) (hcross : s.crossesForward s.driveCycle k) :
    (s.driveCycle.screen k).eng = if (s.screen k).eng.stopSeq ≤ s.entered s.driveCycle k
      then { (s.screen k).eng with state := .parked } else (s.screen k).eng := by
  obtain ⟨u, hu⟩ := s.advancePosition.exists_meets s.pos.deltaP k
  have heng := (State.CycleMeets.crossed hu hcross).trans (Screen.crossed_of_ending h)
  have harmed : (s.advanced.screen k).eng.state ≠ .armed := by
    rw [heng]
    split_ifs
    · exact EngState.noConfusion
    · exact fun hc => absurd (h.symm.trans hc) (by decide)
  rw [State.driveCycle_eng_of_unarmed harmed, heng]

theorem State.driveCycle_eng_lowering (h : s.engState k = .lowering) (hcross : s.crossesForward s.driveCycle k) :
    (s.driveCycle.screen k).eng = if isLowered (s.screen k).last then { (s.screen k).eng with state := .printing }
      else (s.screen k).eng.fault .late := by
  obtain ⟨u, hu⟩ := s.advancePosition.exists_meets s.pos.deltaP k
  have heng := (State.CycleMeets.crossed hu hcross).trans (Screen.crossed_of_lowering h)
  have harmed : (s.advanced.screen k).eng.state ≠ .armed := by
    rw [heng]
    split_ifs <;> exact EngState.noConfusion
  rw [State.driveCycle_eng_of_unarmed harmed, heng]

/-- The window test reads the accumulator after the advance, and the lead of the screen's tuning (R59). -/
theorem State.driveCycle_eng_armed (h : s.engState k = .armed) :
    ((s.driveCycle.screen k).chan.r < (s.driveCycle.screen k).chan.lcur - (s.screen k).tuning.lead →
      (s.driveCycle.screen k).eng = { (s.screen k).eng with window := true })
    ∧ ((s.driveCycle.screen k).chan.lcur - (s.screen k).tuning.lead ≤ (s.driveCycle.screen k).chan.r →
      (s.driveCycle.screen k).eng =
        if (s.screen k).eng.window = true ∧ (s.screen k).eng.startSeq ≤ s.arriving s.driveCycle k then
          { (s.screen k).eng with state := .lowering, window := false }
        else (s.screen k).eng) := by
  have heng := State.advanced_eng_of_unmoved (s := s) (k := k) (by rw [h]; decide) (by rw [h]; decide)
  have htuning : (s.advanced.screen k).tuning = (s.screen k).tuning := by
    rw [ScreensAdvance.advanced s k, State.screen_slewAll, State.screen_advancePosition, Screen.slew_eq]
  have harmed : (s.advanced.screen k).eng.state = .armed := by rw [heng]; exact h
  obtain ⟨hr, hlcur, -⟩ := s.driveCycle_chan k
  rw [hr, hlcur, ← htuning, ← heng, State.driveCycle_eng]
  exact ⟨Screen.window_outside harmed, Screen.window_inside harmed⟩

/-! ### A late drive (R63, R79) -/

/-- After the channels a cycle latches no SCREEN_FAULT. -/
theorem State.driveCycle_latches (s : State) :
    LatchesOnly [.segmentAtCamera, .reportLost, .cureFault, .rollClosed, .drainDone] s.advanced s.driveCycle := by
  have hsend : ∀ v : State, LatchesOnly [] v v.sendFrame.evalHold :=
    fun v => (LatchesOnly.withRing v _).trans (LatchesOnly.withRing _ _)
  rw [State.driveCycle_eq]
  exact (((((LatchesOnly.mapScreens _ s.advanced).trans (.mapScreens _ _)).trans (.webTests _)).trans (hsend _)).trans
    (.evalLines _)).mono (by decide)

theorem State.advanceChannel_screenFault {dw : Int} (hpresent : (s.screen k).present = true)
    (hle : (s.screen k).chan.lcur ≤ (s.screen k).chan.r + dw) (hlate : (s.screen k).late = true) (n : PortId)
    (hsees : (s.port n).role.sees .screenFault) : hasKind ((s.advanceChannel k dw).port n).latched .screenFault := by
  rcases State.advanceChannel_cases k dw s with ⟨h, -⟩ | ⟨-, -, h⟩ | ⟨-, h, -⟩ | ⟨-, h, -⟩
  · rw [hpresent] at h
    cases h
  · rw [h]
    split_ifs with hground
    · obtain rfl := State.newGround_key hground
      rw [State.keyCrossing_eq]
      refine ((WebOnly.create _).2 n).2.1 _ (State.cross_screenFault ?_ n ?_)
      · unfold State.keyAdvanced
        rw [State.screen_withPhase, State.screen_modChan, if_pos rfl]
        exact hlate
      · rw [State.keyAdvanced_eq]
        exact hsees
    · refine State.cross_screenFault ?_ n hsees
      rw [State.screen_modChan, if_pos rfl]
      exact hlate
  · exact absurd hle (not_le.mpr h)
  · exact absurd hle (not_le.mpr h)

theorem State.CycleMeets.latches (hu : s.CycleMeets k u) : Latches s u := by
  have hkeyed : Latches s s.keyed := by
    refine s.slewed_latches.trans ?_
    rw [State.keyed_eq]
    exact (CycleOnly.advanceChannel 0 _ _).2.1
  rcases hu.before with ⟨-, rfl⟩ | ⟨-, hafter, -⟩
  · exact s.slewed_latches
  · exact hkeyed.trans hafter.latches

/-- The fault of a late drive: SCREEN_FAULT, and an entry of its own or one repeat more. -/
theorem State.driveCycle_late (h : s.engState k = .lowering) (hlast : isLowered (s.screen k).last = false)
    (hcross : s.crossesForward s.driveCycle k) :
    (∀ n, (s.port n).role.sees .screenFault → hasKind (s.driveCycle.port n).latched .screenFault)
    ∧ (∀ e ∈ s.ring.faults, e.screen = k → { e with repeats := min 255 (e.repeats + 1) } ∈ s.driveCycle.ring.faults)
    ∧ ((∀ e ∈ s.ring.faults, e.screen ≠ k) →
        { screen := k, cause := .late, seq := s.entered s.driveCycle k, p := s.driveCycle.pos.p, repeats := 1 }
          ∈ s.driveCycle.ring.faults) := by
  obtain ⟨u, hu⟩ := s.advancePosition.exists_meets s.pos.deltaP k
  obtain ⟨hpresent, hle⟩ := (State.CycleMeets.crosses hu).mp hcross
  obtain ⟨-, hslewEng, hslewLast, -⟩ := (s.screen k).slew_same
  have hlate : (u.screen k).late = true := by
    have hlowering : (s.screen k).eng.state = .lowering := h
    rw [State.CycleMeets.screen hu]
    unfold Screen.late
    rw [hslewEng, hslewLast, hlowering, hlast]
    rfl
  have hpos : u.pos.p = s.driveCycle.pos.p := by
    rw [(State.CycleMeets.places hu).2, State.driveCycle_pos, State.slewAll_pos, State.advancePosition_pos]
  have hbefore : entriesOf k u.ring.faults = entriesOf k s.ring.faults := by
    rw [hu.faults]
    unfold State.advancePosition
    rw [State.latchIf_ring, State.withPos_ring]
  have hstep := State.advanceChannel_faults k (s.cycleChange k) u
  rw [if_pos ⟨hpresent, hle, hlate⟩, State.CycleMeets.entered hu hcross, hpos] at hstep
  have hafter : entriesOf k s.driveCycle.ring.faults = entriesOf k (u.advanceChannel k (s.cycleChange k)).ring.faults := by
    have hkeeps := hu.keeps.faults
    unfold State.channelStep at hkeeps
    rw [State.driveCycle_faults]
    unfold State.advanced State.cycleChange
    exact hkeeps
  have hin : ∀ e : FaultEntry, e.screen = k → e ∈ (u.advanceChannel k (s.cycleChange k)).ring.faults →
      e ∈ s.driveCycle.ring.faults := by
    intro e he hmem
    have hentry : e ∈ entriesOf k (u.advanceChannel k (s.cycleChange k)).ring.faults := mem_entriesOf.mpr ⟨hmem, he⟩
    rw [← hafter] at hentry
    exact (mem_entriesOf.mp hentry).1
  refine ⟨fun n hsees => ?_, fun e he hscreen => hin _ hscreen ?_, fun hnone => ?_⟩
  · rw [State.driveCycle_latches s .screenFault (by decide) n]
    have hrole : (u.port n).role = (s.port n).role := by rw [((State.CycleMeets.latches hu) n).1]
    have hstep := State.advanceChannel_screenFault hpresent hle hlate n (hrole ▸ hsees)
    have hlatches := hu.after.latches
    unfold State.channelStep at hlatches
    unfold State.cycleChange at hstep
    exact (hlatches n).2.1 _ hstep
  · rw [hstep]
    have hmem : e ∈ entriesOf k u.ring.faults := hbefore ▸ mem_entriesOf.mpr ⟨he, hscreen⟩
    exact mem_enterFault_repeat (mem_entriesOf.mp hmem).1 hscreen
  · generalize s.driveCycle.pos.p = p at hstep ⊢
    generalize s.entered s.driveCycle k = seq at hstep ⊢
    refine hin _ rfl (hstep ▸ mem_enterFault_new (entriesOf_eq_nil.mp ?_))
    rw [hbefore]
    exact entriesOf_eq_nil.mpr hnone

end

end Sys2Proof.Machine

/-! ### The statements -/

open Sys2Proof Sys2Proof.Machine

/-- Settles O8: by the engagement state before the cycle, from what a crossing and the window test make of its record. -/
theorem driveCycleMovesEngagement : Obligations.DriveCycleMovesEngagement := by
  unfold Obligations.DriveCycleMovesEngagement
  intro s hrun
  refine ⟨_, exec_driveCycle_running s hrun, fun k => ⟨State.driveCycle_eng_idle, fun hending => ⟨?_, ?_⟩,
    fun hlowering => ⟨?_, ?_, ?_⟩, State.driveCycle_eng_armed⟩⟩
  · rintro ⟨hcross, hstop⟩
    rw [State.driveCycle_eng_ending hending hcross, if_pos hstop]
  · intro h
    by_cases hcross : s.crossesForward s.driveCycle k
    · rw [State.driveCycle_eng_ending hending hcross, if_neg (not_le.mpr (h.resolve_left (not_not.mpr hcross)))]
    · exact State.driveCycle_eng_uncrossed (by rw [hending]; decide) hcross
  · exact State.driveCycle_eng_uncrossed (by rw [hlowering]; decide)
  · intro hcross hlast
    rw [State.driveCycle_eng_lowering hlowering hcross, if_pos ((isLowered_iff _).mpr hlast)]
  · intro hcross hlast
    have hlast' : isLowered (s.screen k).last = false := Bool.eq_false_iff.mpr fun h => hlast ((isLowered_iff _).mp h)
    refine ⟨?_, State.driveCycle_late hlowering hlast' hcross⟩
    rw [State.driveCycle_eng_lowering hlowering hcross, hlast']
    rfl
end

section
/-! PROOFS. The setpoint frame that a drive cycle sends, word by word, the stages of the cycle around it, and its
statement. -/

namespace Sys2Proof.Machine

/-! ### The words of the setpoint frame (R72, R184) -/

/-- The parts of a word that stand in its high byte. -/
theorem slotHigh (a : Word) : a.extractLsb' 13 2 = (a.extractLsb' 8 8).extractLsb' 5 2
    ∧ a.extractLsb' 8 5 = (a.extractLsb' 8 8).extractLsb' 0 5 ∧ a.msb = (a.extractLsb' 8 8).msb := by
  refine ⟨?_, ?_, ?_⟩
  · ext i hi
    simp [show 5 + i < 8 by omega, ← Nat.add_assoc]
  · ext i hi
    simp [show i < 8 by omega]
  · simp [BitVec.msb_eq_getLsbD_last]

/-- The parts of the high byte of a slot as sent. -/
theorem sentHigh (c : BitVec 2) (i : BitVec 5) : (0#1 ++ c ++ i : Byte).extractLsb' 5 2 = c
    ∧ (0#1 ++ c ++ i : Byte).extractLsb' 0 5 = i ∧ (0#1 ++ c ++ i : Byte).msb = false := by
  revert c i
  decide

theorem EngState.command_bits (e : EngState) : e.command.toBits =
    match e with
    | .absent => 0#2
    | .parked | .armed | .faulted => 1#2
    | .lowering | .printing | .ending => 2#2 := by
  cases e <;> rfl

/-- The two words of a slot: mark 0, the command, the index and the check over the phase word. -/
theorem sentSlot_eq (k : ScreenId) (c : SlotCommand) (b : Word) : ∃ a : Word, sentSlot k c b = [a, b]
    ∧ a.msb = false ∧ a.extractLsb' 13 2 = c.toBits ∧ (a.extractLsb' 8 5).toNat = k.val
    ∧ a.extractLsb' 0 8 = slotCheck (a.extractLsb' 8 8) b := by
  have hk := k.isLt
  generalize hhigh : (0#1 ++ c.toBits ++ BitVec.ofNat 5 k.val : Byte) = high
  have hword : (high ++ slotCheck high b : Word).extractLsb' 8 8 = high := BitVec.extractLsb'_append_eq_left
  obtain ⟨hcommand, hindex, hmark⟩ := slotHigh (high ++ slotCheck high b)
  obtain ⟨hcommand', hindex', hmark'⟩ := sentHigh c.toBits (BitVec.ofNat 5 k.val)
  rw [hword] at hcommand hindex hmark
  rw [hhigh] at hcommand' hindex' hmark'
  refine ⟨high ++ slotCheck high b, ?_, hmark.trans hmark', hcommand.trans hcommand', ?_, ?_⟩
  · unfold sentSlot
    rw [hhigh]
  · rw [hindex, hindex', BitVec.toNat_ofNat, Nat.mod_eq_of_lt (by omega)]
  · rw [hword]
    exact BitVec.extractLsb'_append_eq_right

/-- In a run of two-word slots slot i begins at word 2 i. -/
theorem flatMap_pairs_getElem? {α β : Type} {f : α → List β} {x y : α → β} (hf : ∀ a, f a = [x a, y a]) (l : List α)
    (i : Nat) : (l.flatMap f)[2 * i]? = l[i]?.map x ∧ (l.flatMap f)[2 * i + 1]? = l[i]?.map y := by
  induction l generalizing i with
  | nil => simp
  | cons a l ih =>
    rw [List.flatMap_cons, hf]
    cases i with
    | zero => exact ⟨rfl, rfl⟩
    | succ i =>
      rw [show 2 * (i + 1) = 2 * i + 1 + 1 by omega]
      exact ih i

theorem flatMap_pairs_length {α β : Type} {f : α → List β} {x y : α → β} (hf : ∀ a, f a = [x a, y a]) (l : List α) :
    (l.flatMap f).length = 2 * l.length := by
  induction l with
  | nil => rfl
  | cons a l ih =>
    rw [List.flatMap_cons, hf, List.length_append, ih, List.length_cons, List.length_cons]
    change 2 + 2 * l.length = 2 * (l.length + 1)
    omega

section
variable (s : State)

/-- The phase word of a slot. -/
def State.phaseWord (k : ScreenId) : Word := if (s.screen k).present then BitVec.ofInt 16 (s.screen k).chan.setpoint else 0

/-- The slots of a setpoint frame as sent. -/
theorem State.setpointFrame_slots (count : Byte) : (s.setpointFrame count).length = 50 ∧ ∀ k : ScreenId, ∃ a : Word,
    (s.setpointFrame count)[2 + 2 * k.val]? = some a ∧ (s.setpointFrame count)[3 + 2 * k.val]? = some (s.phaseWord k)
    ∧ a.msb = false ∧ a.extractLsb' 13 2 = (s.engState k).command.toBits ∧ (a.extractLsb' 8 5).toNat = k.val
    ∧ a.extractLsb' 0 8 = slotCheck (a.extractLsb' 8 8) (s.phaseWord k) := by
  choose x hx hbits using fun k => sentSlot_eq k (s.engState k).command (s.phaseWord k)
  have hslots : ∀ k, s.slotWords k = [x k, s.phaseWord k] := hx
  have hlength : allScreens.length = 24 := List.length_finRange
  refine ⟨?_, fun k => ⟨x k, ?_, ?_, hbits k⟩⟩
  · change (allScreens.flatMap s.slotWords).length + 1 + 1 = 50
    rw [flatMap_pairs_length hslots, hlength]
  all_goals
    have hk : allScreens[k.val]? = some k := by
      rw [List.getElem?_eq_getElem (by rw [hlength]; exact k.isLt)]
      exact congrArg some (List.getElem_finRange _)
    obtain ⟨hfirst, hsecond⟩ := flatMap_pairs_getElem? hslots allScreens k.val
    rw [hk] at hfirst hsecond
  · rw [Nat.add_comm]
    exact hfirst
  · rw [show 3 + 2 * k.val = 2 * k.val + 1 + 2 by omega]
    exact hsecond

/-- A frame is of the screens alone. -/
theorem State.setpointFrame_congr {s t : State} (h : ∀ k, t.screen k = s.screen k) (count : Byte) :
    t.setpointFrame count = s.setpointFrame count := by
  unfold State.setpointFrame
  have hslots : t.slotWords = s.slotWords := by
    funext k
    unfold State.slotWords State.engState
    rw [h]
  rw [hslots]

/-! ### The stages of a cycle before its frame and after it -/

/-- The state that a cycle's frame is made of. -/
def State.beforeFrame : State := s.advanced.windowTests.formSetpoints.webTests

theorem State.driveCycle_of_beforeFrame : s.driveCycle = s.beforeFrame.sendFrame.evalHold.evalLines := by
  rw [State.driveCycle_eq]
  unfold State.beforeFrame
  with_reducible rfl

theorem State.beforeFrame_cycleOnly : CycleOnly s.advancePosition s.beforeFrame :=
  CycleOnly.beforeSend s.pos.deltaP s.advancePosition

/-- The frame, the evaluation of HOLD and of the lines, in any state. -/
theorem State.framed_eq : s.sendFrame.evalHold.evalLines = { s with
    ring := { s.ring with
      frameCount := s.ring.frameCount + 1, inFlight := some (s.ring.frameCount + 1), timer := true
      sent := s.setpointFrame (s.ring.frameCount + 1), hold := s.sendFrame.evalHold.evalLines.ring.hold }
    ports := s.sendFrame.evalHold.evalLines.ports } := by
  rw [State.evalLines_eq]
  rfl

theorem State.driveCycle_ring : ∃ hold : Bool, s.driveCycle.ring = { s.ring with
    faults := s.driveCycle.ring.faults, frameCount := s.ring.frameCount + 1, inFlight := some (s.ring.frameCount + 1)
    timer := true, sent := s.driveCycle.setpointFrame (s.ring.frameCount + 1), hold := hold } := by
  have hring : s.beforeFrame.ring = { s.ring with faults := s.beforeFrame.ring.faults } := by
    have hposition : s.advancePosition.ring = s.ring := by
      unfold State.advancePosition
      rw [State.latchIf_ring, State.withPos_ring]
    rw [s.beforeFrame_cycleOnly.1, hposition]
  have hscreens : ∀ k, s.driveCycle.screen k = s.beforeFrame.screen k := by
    intro k
    have hscreens : s.driveCycle.screens = s.beforeFrame.screens := by
      rw [State.driveCycle_of_beforeFrame, State.framed_eq]
    unfold State.screen
    rw [hscreens]
  rw [State.setpointFrame_congr hscreens, State.driveCycle_of_beforeFrame]
  generalize s.beforeFrame = b at hring
  refine ⟨b.sendFrame.evalHold.evalLines.ring.hold, ?_⟩
  rw [State.framed_eq]
  dsimp only
  rw [hring]

end

end Sys2Proof.Machine

/-! ### The statements -/

open Sys2Proof Sys2Proof.Machine

/-- Settles O9: the ring after the cycle, and the words of a setpoint frame. -/
theorem driveCycleSendsSetpointFrame : Obligations.DriveCycleSendsSetpointFrame := by
  unfold Obligations.DriveCycleSendsSetpointFrame
  intro s hrun
  obtain ⟨hold, hring⟩ := s.driveCycle_ring
  obtain ⟨hlength, hslots⟩ := s.driveCycle.setpointFrame_slots (s.ring.frameCount + 1)
  have hcount : s.driveCycle.ring.frameCount = s.ring.frameCount + 1 := congrArg Ring.frameCount hring
  have hflight : s.driveCycle.ring.inFlight = some (s.ring.frameCount + 1) := congrArg Ring.inFlight hring
  have htimer : s.driveCycle.ring.timer = true := congrArg Ring.timer hring
  have hsent : s.driveCycle.ring.sent = s.driveCycle.setpointFrame (s.ring.frameCount + 1) := congrArg Ring.sent hring
  refine ⟨_, exec_driveCycle_running s hrun, ?_, ?_, htimer, ?_, ?_, ?_, fun k => ?_⟩
  · rw [hcount, BitVec.toNat_add]
    rfl
  · rw [hflight, hcount]
  · rw [hsent, hlength]
  · rw [hsent, hcount, ← ringHeader_eq]
    rfl
  · rw [hsent, hcount, ← ringHeader_eq]
    rfl
  · obtain ⟨a, hfirst, hsecond, hmark, hcommand, hindex, hcheck⟩ := hslots k
    rw [EngState.command_bits] at hcommand
    rw [← hsent] at hfirst hsecond
    refine ⟨a, _, hfirst, hsecond, hmark, ?_, hindex, hcheck, rfl⟩
    generalize s.driveCycle.engState k = e at hcommand ⊢
    exact hcommand
end

section
/-! PROOFS. What a drive cycle leaves unchanged, and its statement. -/

namespace Sys2Proof.Machine

/-! ### The roll ids and the last seam at the exit tests -/

/-- A Web Map keeps its next roll id and its last seam. -/
def WebMap.SameSeam (w w' : WebMap) : Prop := w'.nextRollId = w.nextRollId ∧ w'.lastSeam = w.lastSeam

theorem WebMap.SameSeam.trans {w w' w'' : WebMap} (h1 : w.SameSeam w') (h2 : w'.SameSeam w'') : w.SameSeam w'' :=
  ⟨h2.1.trans h1.1, h2.2.trans h1.2⟩

theorem WebMap.SameRun.sameSeam {w w' : WebMap} (h : w.SameRun w') : w.SameSeam w' := ⟨h.nextRollId, h.lastSeam⟩

theorem State.drainIfEmpty_sameSeam (s : State) : s.web.SameSeam s.drainIfEmpty.web := by
  rw [State.drainIfEmpty_web]
  split <;> exact ⟨rfl, rfl⟩

theorem State.exitHead_passes (g : Segment) (rest : List Segment) (s : State) :
    s.web.Passes (((s.withQueue rest).gradeRecord .exit g).nextRollTest g.roll).web :=
  WebMap.Passes.trans (w' := (s.withQueue rest).web) rfl
    ((State.gradeRecord_passes _ _ _).trans (State.nextRollTest_passes _ _))

theorem State.exitLoop_sameSeam (x : Int) (n : Nat) (s : State) : s.web.SameSeam (s.exitLoop x n).web := by
  induction n generalizing s with
  | zero => exact ⟨rfl, rfl⟩
  | succ n ih =>
    unfold State.exitLoop
    split
    · exact ⟨rfl, rfl⟩
    · split
      · exact ((State.exitHead_passes _ _ s).sameRun.sameSeam.trans (State.drainIfEmpty_sameSeam _)).trans (ih _)
      · exact ⟨rfl, rfl⟩

theorem State.webTests_sameSeam (s : State) : s.web.SameSeam s.webTests.web := by
  unfold State.webTests State.exitTest
  split
  · exact ⟨rfl, rfl⟩
  · refine s.cameraTest_passes.sameRun.sameSeam.trans ?_
    split
    · exact ⟨rfl, rfl⟩
    · exact State.exitLoop_sameSeam _ _ _

section
variable (s : State)

theorem State.driveCycle_sameSeam : s.web.SameSeam s.driveCycle.web := by
  rw [State.driveCycle_web]
  refine s.advanced_sameRun.sameSeam.trans (WebMap.SameSeam.trans ?_ (State.webTests_sameSeam _))
  rw [State.formSetpoints_web, State.windowTests_web]
  exact ⟨rfl, rfl⟩

/-! ### Engagement records keep their seqs -/

theorem Screen.crossed_seqs (x : Screen) (n : Nat) :
    (x.crossed n).startSeq = x.eng.startSeq ∧ (x.crossed n).stopSeq = x.eng.stopSeq := by
  unfold Screen.crossed
  cases x.eng.state with
  | lowering => dsimp only; split_ifs <;> exact ⟨rfl, rfl⟩
  | ending => dsimp only; split_ifs <;> exact ⟨rfl, rfl⟩
  | absent | parked | armed | printing | faulted => exact ⟨rfl, rfl⟩

theorem Screen.window_seqs (x : Screen) (n : Nat) :
    (x.window n).eng.startSeq = x.eng.startSeq ∧ (x.window n).eng.stopSeq = x.eng.stopSeq := by
  unfold Screen.window
  split_ifs <;> exact ⟨rfl, rfl⟩

theorem State.driveCycle_engSeqs (k : ScreenId) : (s.driveCycle.screen k).eng.startSeq = (s.screen k).eng.startSeq
    ∧ (s.driveCycle.screen k).eng.stopSeq = (s.screen k).eng.stopSeq := by
  obtain ⟨u, hu⟩ := s.advancePosition.exists_meets s.pos.deltaP k
  obtain ⟨hstart, hstop⟩ := (s.advanced.screen k).window_seqs (s.arriving s.driveCycle k)
  rw [State.driveCycle_eng, hstart, hstop]
  by_cases hcross : s.crossesForward s.driveCycle k
  · rw [State.CycleMeets.crossed hu hcross]
    exact Screen.crossed_seqs _ _
  · rw [State.CycleMeets.uncrossed hu hcross]
    exact ⟨rfl, rfl⟩

/-! ### The frame of a cycle -/

theorem State.beforeFrame_frame : s.beforeFrame = { s with
    pos := s.beforeFrame.pos, screens := s.beforeFrame.screens
    phase := { s.phase with highWater := s.beforeFrame.phase.highWater }
    ring := { s.ring with faults := s.beforeFrame.ring.faults }, web := s.beforeFrame.web
    reports := s.beforeFrame.reports, ports := s.beforeFrame.ports } := by
  have hposition : s.advancePosition = { s with pos := s.pos.advance, ports := s.advancePosition.ports } := by
    unfold State.advancePosition
    cases s.pos.motionClamp <;> rfl
  have hframe := s.beforeFrame_cycleOnly.1
  generalize s.beforeFrame = b at hframe ⊢
  generalize s.advancePosition = a at hframe hposition
  rw [hframe, hposition]

theorem State.driveCycle_frame : s.driveCycle = { s with
    pos := s.driveCycle.pos, screens := s.driveCycle.screens
    phase := { s.phase with highWater := s.driveCycle.phase.highWater }, ring := s.driveCycle.ring
    web := s.driveCycle.web, reports := s.driveCycle.reports, ports := s.driveCycle.ports } := by
  have hbefore := s.beforeFrame_frame
  rw [State.driveCycle_of_beforeFrame]
  generalize s.beforeFrame = b at hbefore ⊢
  have hframed := b.framed_eq
  generalize b.sendFrame.evalHold.evalLines = t at hframed ⊢
  rw [hframed, hbefore]

/-- A screen keeps its record, its drive's answers and its seqs. -/
theorem State.driveCycle_screen_kept (k : ScreenId) : (s.driveCycle.screen k).sameRecord (s.screen k)
    ∧ (s.driveCycle.screen k).miss = (s.screen k).miss ∧ (s.driveCycle.screen k).last = (s.screen k).last := by
  have hscreen := s.beforeFrame_cycleOnly.2.2 k
  rw [State.screen_advancePosition] at hscreen
  have hkept : s.driveCycle.screen k = s.beforeFrame.screen k := by
    have hscreens : s.driveCycle.screens = s.beforeFrame.screens := by
      rw [State.driveCycle_of_beforeFrame, State.framed_eq]
    unfold State.screen
    rw [hscreens]
  rw [hkept, hscreen]
  exact ⟨⟨rfl, rfl, rfl, rfl, rfl, rfl, rfl⟩, rfl, rfl⟩

theorem State.beforeFrame_latches : Latches s s.beforeFrame := by
  refine .trans (t := s.advancePosition) ?_ s.beforeFrame_cycleOnly.2.1
  exact .trans (.of_ports rfl) (.latchIf _ _ (s.withPos s.pos.advance))

theorem State.framed_port (n : PortId) :
    ∃ line, s.sendFrame.evalHold.evalLines.port n = { s.port n with line := line } :=
  ⟨_, State.port_evalLines _ n⟩

theorem State.driveCycle_port_kept (n : PortId) : (s.driveCycle.port n).sameSerial (s.port n)
    ∧ (s.driveCycle.port n).enabled = (s.port n).enabled
    ∧ ∀ e, hasKind (s.port n).latched e → hasKind (s.driveCycle.port n).latched e := by
  obtain ⟨-, henabled, -, hserial⟩ := s.beforeFrame_latches.keeps n
  have hmono := (s.beforeFrame_latches n).2.1
  obtain ⟨line, hport⟩ := s.beforeFrame.framed_port n
  rw [State.driveCycle_of_beforeFrame, hport]
  generalize s.beforeFrame.port n = q at henabled hserial hmono
  exact ⟨hserial, henabled, hmono⟩

theorem State.driveCycle_blocks : s.driveCycle.inReset = s.inReset ∧ s.driveCycle.oven = s.oven
    ∧ s.driveCycle.cure = s.cure ∧ s.driveCycle.freeIndex = s.freeIndex ∧ s.driveCycle.pending = s.pending := by
  have hframe := s.driveCycle_frame
  generalize s.driveCycle = t at hframe ⊢
  rw [hframe]
  exact ⟨rfl, rfl, rfl, rfl, rfl⟩

end

section
variable {s : State}

/-! ### The high-water mark, and the web in SETUP -/

theorem State.driveCycle_highWater (s : State) : s.driveCycle.phase.highWater = s.keyed.phase.highWater := by
  have hframed : s.driveCycle.phase = s.beforeFrame.phase := by
    rw [State.driveCycle_of_beforeFrame, State.framed_eq]
  have hbefore : s.beforeFrame.phase = s.advanced.phase := by
    unfold State.beforeFrame
    rw [(WebOnly.webTests _).1]
    unfold State.formSetpoints State.windowTests
    rw [State.mapScreens_phase, State.mapScreens_phase]
  rw [hframed, hbefore, AdvanceOnly.phase s.advanced_of_keyed.1]

/-- The high-water mark rises with new ground alone (R38). -/
theorem State.driveCycle_highWater_of_no_ground (h : ¬ s.handsNewGround s.driveCycle) :
    s.driveCycle.phase.highWater = s.phase.highWater := by
  rw [State.driveCycle_highWater, AdvanceOnly.phase (State.keyed_of_no_ground h), s.slewed_frame]

theorem eq_nil_of_unprinted {q : List Segment} (h : unprinted q = []) : q = [] := List.map_eq_nil_iff.mp h

/-- A cycle in SETUP, with nothing queued, leaves the Web Map and the reports. -/
theorem State.driveCycle_setup (hsetup : s.web.lineState = .setup) (hqueue : s.web.queue = []) :
    s.driveCycle.web = s.web ∧ s.driveCycle.reports = s.reports ∧ s.driveCycle.phase.highWater = s.phase.highWater := by
  have hground : ¬ s.handsNewGround s.driveCycle := by
    rintro ⟨-, hrun, -⟩
    rw [hsetup] at hrun
    cases hrun
  have hfound : s.found s.driveCycle = s := if_neg hground
  have hfinds := s.advanced_finds
  have hreports := s.advanced_reports
  unfold State.webFound at hfinds
  rw [hfound] at hfinds hreports
  have hweb : s.advanced.web = s.web := by
    have hnil : s.advanced.web.queue = s.web.queue := by
      rw [hqueue]
      exact eq_nil_of_unprinted (by rw [hfinds.queue, hqueue]; rfl)
    rw [hfinds.web, hnil]
  have hformed : s.advanced.windowTests.formSetpoints.web = s.web := by
    rw [State.formSetpoints_web, State.windowTests_web, hweb]
  have htests : s.beforeFrame = s.advanced.windowTests.formSetpoints := by
    unfold State.beforeFrame State.webTests
    rw [if_pos (by rw [hformed, hsetup])]
  refine ⟨?_, ?_, State.driveCycle_highWater_of_no_ground hground⟩
  · rw [State.driveCycle_of_beforeFrame, State.framed_eq, htests, hformed]
  · rw [State.driveCycle_of_beforeFrame, State.framed_eq, htests, ← hreports]
    unfold State.formSetpoints State.windowTests
    rw [State.mapScreens_reports, State.mapScreens_reports]

end

end Sys2Proof.Machine

/-! ### The statements -/

open Sys2Proof Sys2Proof.Machine

/-- Settles O10: by the frames of the stages of the cycle. -/
theorem driveCycleFrame : Obligations.DriveCycleFrame := by
  unfold Obligations.DriveCycleFrame
  intro s hrun
  obtain ⟨hid, hseam⟩ := s.driveCycle_sameSeam
  obtain ⟨hstretch, hfabric⟩ := s.driveCycle_staged
  obtain ⟨hold, hring⟩ := s.driveCycle_ring
  obtain ⟨hreset, hoven, hcure, hfree, hpending⟩ := s.driveCycle_blocks
  have hstate := congrArg Ring.state hring
  refine ⟨_, exec_driveCycle_running s hrun, hreset.trans hrun, s.driveCycle_line,
    hoven, hcure, s.driveCycle_planned, hstretch, hfabric,
    hstate, hfree, hpending, hid, hseam,
    fun k => ?_, s.driveCycle_port_kept, State.driveCycle_setup⟩
  obtain ⟨hrecord, hmiss, hlast⟩ := s.driveCycle_screen_kept k
  exact ⟨hrecord, hmiss, hlast, s.driveCycle_engSeqs k⟩
end

section
/-! PROOFS. The exit test of a drive cycle in full: which records leave, what their leavings post to the books, and the
drain that they complete. -/

namespace Sys2Proof.Machine

/-- A record's trailing edge is at the exit. -/
def Segment.dueAt (p exit : Int) (g : Segment) : Bool := decide (exit ≤ p - g.start - g.length)

/-- What the exit tests of a cycle make of a state, these records leaving and those staying. -/
structure ExitsTo (b : State) (l : Ledger) (kinds : EventKind → Prop) (s : State) (gone kept : List Segment) (t : State) :
    Prop where
  queue : t.web.queue = kept
  lineState : t.web.lineState =
    if s.web.lineState = .drain ∧ gone ≠ [] ∧ kept = [] then .setup else s.web.lineState
  books : Books b
    ((Ledger.exits b.line b.cure kept gone l).drainIf (s.web.lineState = .drain ∧ gone ≠ [] ∧ kept = []))
    (fun e => kinds e
      ∨ ((∃ g ∈ gone, (gradeOf (faultsOf b.line b.cure .exit g)).isCure = true) ∧ e = .cureFault)
      ∨ ((s.web.lineState = .drain ∧ gone ≠ [] ∧ kept = []) ∧ e = .drainDone)) t

section
variable {b s t : State} {l : Ledger} {kinds : EventKind → Prop} {kept : List Segment}

/-- No record leaves. -/
theorem ExitsTo.nothing (h : Books b l kinds s) (hq : s.web.queue = kept) : ExitsTo b l kinds s [] kept s where
  queue := hq
  lineState := by simp
  books := by
    unfold Ledger.exits Ledger.drainIf
    rw [if_neg (by simp)]
    exact h.mono (by simp)

/-- The head leaves, graded and tested for its roll. -/
def State.leaveHead (g : Segment) (rest : List Segment) (s : State) : State :=
  ((s.withQueue rest).gradeRecord .exit g).nextRollTest g.roll

theorem State.exitHead_eq (g : Segment) (rest : List Segment) (s : State) :
    s.exitHead g rest = (s.leaveHead g rest).drainIfEmpty := rfl

theorem State.leaveHead_web (g : Segment) (rest : List Segment) (s : State) :
    (s.leaveHead g rest).web.queue = rest ∧ (s.leaveHead g rest).web.lineState = s.web.lineState := by
  refine ⟨?_, (State.exitHead_passes g rest s).sameRun.lineState⟩
  unfold State.leaveHead
  rw [State.nextRollTest_queue, State.gradeRecord_web]
  rfl

/-- The kinds that a leaving latches. -/
def leavingKinds (b : State) (g : Segment) (kinds : EventKind → Prop) (e : EventKind) : Prop :=
  kinds e ∨ ((gradeOf (faultsOf b.line b.cure .exit g)).isCure = true ∧ e = .cureFault)

theorem Books.leaveHead (h : Books b l kinds s) (g : Segment) (rest : List Segment) :
    Books b ((l.leave b.line b.cure .exit g).nextRoll rest g.roll) (leavingKinds b g kinds) (s.leaveHead g rest) := by
  have htest := ((h.withQueue rest).gradeRecord .exit g).nextRollTest g.roll
  have hqueue : ((s.withQueue rest).gradeRecord .exit g).web.queue = rest := by
    rw [State.gradeRecord_web]
    rfl
  rwa [hqueue] at htest

theorem State.drainIfEmpty_of_queued (h : s.web.queue ≠ []) : s.drainIfEmpty = s := if_neg fun hc => h hc.2

theorem State.exitLoop_of_empty (x : Int) (n : Nat) (h : s.web.queue = []) : s.exitLoop x n = s := by
  cases n with
  | zero => rfl
  | succ n =>
    unfold State.exitLoop
    rw [h]

/-- The last queued record leaves, and a drain completes (R92). -/
theorem ExitsTo.last (h : Books b l kinds s) (g : Segment) : ExitsTo b l kinds s [g] [] (s.exitHead g []) where
  queue := State.exitHead_queue g [] s
  lineState := by
    obtain ⟨hqueue, hline⟩ := State.leaveHead_web g [] s
    rw [State.exitHead_eq, State.drainIfEmpty_web, hqueue, hline]
    by_cases hd : s.web.lineState = .drain
    · rw [if_pos ⟨hd, rfl⟩, if_pos ⟨hd, by simp, rfl⟩]
    · rw [if_neg fun hc => hd hc.1, if_neg fun hc => hd hc.1, hline]
  books := by
    obtain ⟨hqueue, hline⟩ := State.leaveHead_web g [] s
    have hdrain := (h.leaveHead g []).drainIfEmpty
    rw [hqueue, hline] at hdrain
    have hcond : (s.web.lineState = .drain ∧ ([] : List Segment) = []) ↔
        (s.web.lineState = .drain ∧ [g] ≠ [] ∧ ([] : List Segment) = []) := by simp
    have hledger : (Ledger.exits b.line b.cure [] [g] l).drainIf (s.web.lineState = .drain ∧ [g] ≠ [] ∧ ([] : List Segment) = [])
        = ((l.leave b.line b.cure .exit g).nextRoll [] g.roll).drainIf
          (s.web.lineState = .drain ∧ ([] : List Segment) = []) := if_congr hcond.symm rfl rfl
    rw [hledger, State.exitHead_eq]
    exact hdrain.mono fun e => by simp [leavingKinds, or_assoc]

/-- A record leaves before the others that do. -/
theorem ExitsTo.cons {u : State} {g : Segment} {gone : List Segment} (hline : u.web.lineState = s.web.lineState)
    (hne : gone ++ kept ≠ [])
    (h : ExitsTo b ((l.leave b.line b.cure .exit g).nextRoll (gone ++ kept) g.roll) (leavingKinds b g kinds) u gone kept t) :
    ExitsTo b l kinds s (g :: gone) kept t := by
  have hcond : (u.web.lineState = .drain ∧ gone ≠ [] ∧ kept = []) ↔
      (s.web.lineState = .drain ∧ g :: gone ≠ [] ∧ kept = []) := by
    rw [hline]
    refine and_congr_right fun _ => ⟨fun ⟨_, hk⟩ => ⟨by simp, hk⟩, fun ⟨_, hk⟩ => ⟨?_, hk⟩⟩
    rintro rfl
    exact hne (by rw [hk]; rfl)
  refine ⟨h.queue, ?_, ?_⟩
  · rw [h.lineState, hline]
    exact if_congr (hline ▸ hcond) rfl rfl
  · have hledger : (Ledger.exits b.line b.cure kept (g :: gone) l).drainIf
          (s.web.lineState = .drain ∧ g :: gone ≠ [] ∧ kept = [])
        = (Ledger.exits b.line b.cure kept gone ((l.leave b.line b.cure .exit g).nextRoll (gone ++ kept) g.roll)).drainIf
          (u.web.lineState = .drain ∧ gone ≠ [] ∧ kept = []) := if_congr hcond.symm rfl rfl
    rw [hledger]
    refine h.books.mono fun e => ?_
    unfold leavingKinds
    rw [hcond, List.exists_mem_cons_iff, or_and_right, or_assoc, or_assoc]

/-- The records due leave one after another, from the head (R100). -/
theorem ExitsTo.exitLoop (x : Int) (n : Nat) (h : Books b l kinds s) (hn : s.web.queue.length ≤ n) :
    ExitsTo b l kinds s (s.web.queue.takeWhile (Segment.dueAt s.pos.p x)) (s.web.queue.dropWhile (Segment.dueAt s.pos.p x))
      (s.exitLoop x n) := by
  induction n generalizing s l kinds with
  | zero =>
    have hempty : s.web.queue = [] := List.eq_nil_of_length_eq_zero (Nat.le_zero.mp hn)
    rw [hempty]
    exact .nothing h hempty
  | succ n ih =>
    unfold State.exitLoop
    rcases hq : s.web.queue with _ | ⟨g, rest⟩
    · exact .nothing h hq
    · dsimp only
      by_cases hdue : x ≤ s.pos.p - g.start - g.length
      · rw [if_pos hdue, List.takeWhile_cons_of_pos (by simpa [Segment.dueAt] using hdue),
          List.dropWhile_cons_of_pos (by simpa [Segment.dueAt] using hdue)]
        cases rest with
        | nil =>
          rw [State.exitLoop_of_empty x n (State.exitHead_queue g [] s)]
          exact .last h g
        | cons g' rest =>
          obtain ⟨hqueue, hline⟩ := State.leaveHead_web g (g' :: rest) s
          have hpos : (s.leaveHead g (g' :: rest)).pos = s.pos :=
            ((WebOnly.withQueue s _).trans ((WebOnly.gradeRecord _ _ _).trans (.nextRollTest _ _))).pos
          rw [State.exitHead_eq, State.drainIfEmpty_of_queued (by rw [hqueue]; exact List.cons_ne_nil _ _)]
          have hbooks := h.leaveHead g (g' :: rest)
          have hrest := ih hbooks (by rw [hqueue]; rw [hq] at hn; exact Nat.le_of_succ_le_succ hn)
          rw [hqueue, hpos] at hrest
          have hsplit : (g' :: rest).takeWhile (Segment.dueAt s.pos.p x) ++ (g' :: rest).dropWhile (Segment.dueAt s.pos.p x)
              = g' :: rest := List.takeWhile_append_dropWhile
          refine .cons hline (by rw [hsplit]; exact List.cons_ne_nil _ _) ?_
          rw [hsplit]
          exact hrest
      · rw [if_neg hdue, List.takeWhile_cons_of_neg (by simpa [Segment.dueAt] using hdue),
          List.dropWhile_cons_of_neg (by simpa [Segment.dueAt] using hdue)]
        exact .nothing h hq

/-! ### The camera test, and both tests of a cycle (R99, R100) -/

/-- The state after the camera test of a cycle; in SETUP there is none. -/
def State.afterCamera (s : State) : State := if s.web.lineState = .setup then s else s.cameraTest

/-- Where the exit test of a cycle lets records leave; in SETUP, and without a zone, nowhere. -/
def State.exitPoint (s : State) : Option Int := if s.web.lineState = .setup then none else s.oven.exit

/-- A record leaves at the exit test of a cycle. -/
def Segment.dueBy (p : Int) (exit : Option Int) (g : Segment) : Bool :=
  match exit with
  | none => false
  | some x => g.dueAt p x

/-- A record after the camera test: what has reached the camera is marked so. -/
def Segment.seenAt (p xInsp : Int) (g : Segment) : Segment :=
  { g with camera := g.camera || decide (xInsp ≤ p - g.start) }

theorem State.cameraTest_eq (s : State) : s.cameraTest =
    (s.withQueue (s.web.queue.map (Segment.seenAt s.pos.p s.line.xInsp))).latchIf
      (s.web.queue.any fun g => g.reaches s.pos.p s.line.xInsp) .segmentAtCamera := rfl

theorem State.afterCamera_web (s : State) : s.afterCamera.web = { s.web with
    queue := if s.web.lineState = .setup then s.web.queue
      else s.web.queue.map (Segment.seenAt s.pos.p s.line.xInsp) } := by
  unfold State.afterCamera
  split_ifs with hsetup
  · rfl
  · rw [State.cameraTest_eq, State.latchIf_web]
    rfl

theorem State.afterCamera_webOnly (s : State) : WebOnly s s.afterCamera := by
  unfold State.afterCamera
  split_ifs
  · exact .refl s
  · exact .cameraTest s

theorem State.afterCamera_reports (s : State) : s.afterCamera.reports = s.reports := by
  unfold State.afterCamera
  split_ifs
  · rfl
  · exact s.cameraTest_reports

/-- The camera test latches SEGMENT_AT_CAMERA for a record that reaches the camera now (R99). -/
theorem State.afterCamera_latched (s : State) (n : PortId) (e : EventKind) :
    hasKind (s.afterCamera.port n).latched e ↔ hasKind (s.port n).latched e ∨ (e = .segmentAtCamera
      ∧ (s.port n).role.sees e ∧ s.web.lineState ≠ .setup
      ∧ ∃ g ∈ s.web.queue, g.camera = false ∧ s.line.xInsp ≤ s.pos.p - g.start) := by
  unfold State.afterCamera
  split_ifs with hsetup
  · simp [hsetup]
  · rw [State.cameraTest_eq, State.hasKind_latchIf, State.port_withQueue]
    simp only [List.any_eq_true, Segment.reaches, Bool.and_eq_true, Bool.not_eq_true', decide_eq_true_eq]
    tauto

theorem State.webTests_of_no_exit {s : State} (h : s.exitPoint = none) : s.webTests = s.afterCamera := by
  have hoven : s.cameraTest.oven = s.oven := by rw [(WebOnly.cameraTest s).1]
  unfold State.exitPoint at h
  unfold State.webTests State.afterCamera
  split_ifs at h ⊢ with hsetup
  · rfl
  · unfold State.exitTest
    rw [hoven, h]

theorem State.webTests_of_exit {s : State} {x : Int} (h : s.exitPoint = some x) :
    s.webTests = s.afterCamera.exitLoop x s.afterCamera.web.queue.length := by
  have hoven : s.cameraTest.oven = s.oven := by rw [(WebOnly.cameraTest s).1]
  unfold State.exitPoint at h
  unfold State.webTests State.afterCamera
  split_ifs at h ⊢ with hsetup
  unfold State.exitTest
  rw [hoven, h]

/-- Both tests of a cycle, from the state that the camera test leaves. -/
theorem ExitsTo.webTests (s : State) : ExitsTo s.afterCamera ⟨s.afterCamera.web.rolls, []⟩ noKind s.afterCamera
    (s.afterCamera.web.queue.takeWhile (Segment.dueBy s.pos.p s.exitPoint))
    (s.afterCamera.web.queue.dropWhile (Segment.dueBy s.pos.p s.exitPoint)) s.webTests := by
  have hpos : s.afterCamera.pos = s.pos := s.afterCamera_webOnly.pos
  cases hexit : s.exitPoint with
  | none =>
    rw [State.webTests_of_no_exit hexit]
    have hnone : Segment.dueBy s.pos.p none = fun _ => false := rfl
    have htake : s.afterCamera.web.queue.takeWhile (fun _ => false) = [] := by
      cases s.afterCamera.web.queue <;> rfl
    have hdrop : s.afterCamera.web.queue.dropWhile (fun _ => false) = s.afterCamera.web.queue := by
      cases s.afterCamera.web.queue <;> rfl
    rw [hnone, htake, hdrop]
    exact .nothing (.opened _) rfl
  | some x =>
    rw [State.webTests_of_exit hexit]
    have hsome : Segment.dueBy s.pos.p (some x) = Segment.dueAt s.afterCamera.pos.p x := by
      rw [hpos]
      rfl
    rw [hsome]
    exact .exitLoop x _ (.opened _) le_rfl

end
end Sys2Proof.Machine
end

section
/-! PROOFS. The records of a drive cycle: what it marks, what reaches the camera and what leaves, and the statement. -/

namespace Sys2Proof.Machine

section
variable {s u : State} {k : ScreenId}

/-! ### What a cycle marks (R61) -/

theorem EngState.down_iff (e : EngState) : e.down = true ↔ e = .printing ∨ e = .ending := by
  cases e <;> decide

/-- The window test takes no screen to PRINTING or ENDING, nor from there. -/
theorem Screen.window_down (x : Screen) (n : Nat) : (x.window n).eng.state.down = x.eng.state.down := by
  unfold Screen.window
  split_ifs with harmed hr hw
  · rfl
  · rfl
  · rw [not_not.mp harmed]
    rfl
  · rfl

theorem State.driveCycle_down (s : State) (k : ScreenId) :
    (s.driveCycle.engState k = .printing ∨ s.driveCycle.engState k = .ending)
      ↔ (s.advanced.screen k).eng.state.down = true := by
  rw [← EngState.down_iff]
  unfold State.engState
  rw [State.driveCycle_eng, Screen.window_down]

theorem markIn_getElem? {q : List Segment} {w : Int} {i : Nat} {g : Segment} (hg : q[i]? = some g) :
    (markIn k w q)[i]? = some (if g.holds w then { g with printed := addTo g.printed k } else g) := by
  unfold markIn
  rw [List.getElem?_map, hg]
  rfl

/-- A channel that marks at all, as the states before and after the cycle say it. -/
theorem State.CycleMeets.marks_iff (hu : s.CycleMeets k u) (hground : ¬ s.onNewGround s.driveCycle k) :
    ((u.screen k).present = true ∧ (u.screen k).chan.lcur ≤ (u.screen k).chan.r + s.cycleChange k
      ∧ (u.advancedScreen k (s.cycleChange k)).eng.state.down = true) ↔ s.marks s.driveCycle k := by
  unfold State.marks
  rw [State.driveCycle_down]
  constructor
  · rintro ⟨hpresent, hle, hdown⟩
    have hcross := (State.CycleMeets.crosses hu).mpr ⟨hpresent, hle⟩
    refine ⟨hcross, hground, ?_⟩
    rwa [State.CycleMeets.advanced_screen hu, if_pos hcross.1]
  · rintro ⟨hcross, -, hdown⟩
    obtain ⟨hpresent, hle⟩ := (State.CycleMeets.crosses hu).mp hcross
    rw [State.CycleMeets.advanced_screen hu, if_pos hcross.1] at hdown
    exact ⟨hpresent, hle, hdown⟩

/-- The printed sets after the channels: what was printed, and what each screen that marks has entered (R61). -/
theorem State.advanced_marked {i : Nat} {g g' : Segment} (hg : (s.webFound s.driveCycle).queue[i]? = some g)
    (hg' : s.advanced.web.queue[i]? = some g') (k : ScreenId) : inSet g'.printed k = true ↔ inSet g.printed k = true
      ∨ (s.marks s.driveCycle k ∧ g.start ≤ s.driveCycle.design k ∧ s.driveCycle.design k < g.start + g.length) := by
  obtain ⟨u, hu⟩ := s.advancePosition.exists_meets s.pos.deltaP k
  have hkeeps : marksOf k s.advanced.web.queue = marksOf k (u.advanceChannel k (s.cycleChange k)).web.queue := by
    have hkeeps := hu.keeps.marks
    unfold State.channelStep at hkeeps
    unfold State.advanced State.cycleChange
    exact hkeeps
  by_cases hground : s.onNewGround s.driveCycle k
  · have hnone : ¬ s.marks s.driveCycle k := fun hmarks => hmarks.2.1 hground
    obtain ⟨rfl, hnew⟩ := hground
    have hkeyed : s.keyed.web.queue = (s.webFound s.driveCycle).queue := by
      obtain ⟨hweb, -⟩ := (State.sameCreation hnew).create
      have hfound : s.found s.driveCycle = s.afterCreation s.driveCycle := if_pos hnew
      unfold State.webFound
      rw [State.keyed_of_ground hnew, hweb, hfound, State.afterCreation_eq]
    have hmarks := s.advanced_of_keyed.2.marks
    rw [hkeyed] at hmarks
    rw [marksOf_getElem? hmarks hg hg']
    simp [hnone]
  · have hbreaks : ¬ u.breaksGround k (s.cycleChange k) := by
      rintro ⟨hpresent, hle, hnew⟩
      have hcross := (State.CycleMeets.crosses hu).mpr ⟨hpresent, hle⟩
      exact hground ((State.CycleMeets.ground hu hcross).mp hnew)
    have hfinds := State.CycleMeets.finds hu hground
    have hlength : i < u.web.queue.length := by
      have hsame := congrArg List.length hfinds.queue
      simp only [unprinted, List.length_map] at hsame
      rw [hsame]
      exact (List.getElem?_eq_some_iff.mp hg).1
    have hh : u.web.queue[i]? = some u.web.queue[i] := List.getElem?_eq_getElem hlength
    generalize u.web.queue[i] = h at hh
    have hsame := unprinted_getElem? hfinds.queue hg hh
    have hmark := marksOf_getElem? (State.CycleMeets.marks hu hground) hg hh
    have hqueue := State.advanceChannel_queue hbreaks
    rw [hqueue] at hkeeps
    have hspan : h.start = g.start ∧ h.length = g.length := by rw [hsame]; exact ⟨rfl, rfl⟩
    by_cases hmarks : s.marks s.driveCycle k
    · rw [if_pos ((State.CycleMeets.marks_iff hu hground).mpr hmarks), State.CycleMeets.design hu] at hkeeps
      rw [marksOf_getElem? hkeeps (markIn_getElem? hh) hg', ← hmark]
      by_cases hholds : h.holds (s.driveCycle.design k) = true
      · rw [if_pos hholds]
        simp only [Segment.holds, Bool.and_eq_true, decide_eq_true_eq, hspan] at hholds
        simp [hmarks, hholds, inSet_addTo]
      · rw [if_neg hholds]
        simp only [Segment.holds, Bool.and_eq_true, decide_eq_true_eq, hspan] at hholds
        simp [hmarks, hholds]
    · rw [if_neg fun hc => hmarks ((State.CycleMeets.marks_iff hu hground).mp hc)] at hkeeps
      rw [marksOf_getElem? hkeeps hh hg', ← hmark]
      simp [hmarks]

/-! ### The state in which the camera test and the exit test run -/

/-- The state before the camera test and the exit test of a cycle. -/
def State.beforeTests (s : State) : State := s.advanced.windowTests.formSetpoints

theorem State.beforeFrame_eq (s : State) : s.beforeFrame = s.beforeTests.webTests := by
  unfold State.beforeFrame State.beforeTests
  with_reducible rfl

theorem State.mapScreens_frame (f : ScreenId → Screen → Screen) (s : State) :
    s.mapScreens f = s.withScreens (s.mapScreens f).screens := by
  unfold State.mapScreens State.withScreens
  dsimp only

theorem State.withScreens_withScreens (v w : Vector Screen 24) (s : State) :
    (s.withScreens v).withScreens w = s.withScreens w := by
  unfold State.withScreens
  dsimp only

theorem State.mapScreens_twice (f g : ScreenId → Screen → Screen) (s : State) :
    (s.mapScreens f).mapScreens g = s.withScreens ((s.mapScreens f).mapScreens g).screens := by
  have hg := State.mapScreens_frame g (s.mapScreens f)
  have hf := State.mapScreens_frame f s
  generalize (s.mapScreens f).mapScreens g = u at hg ⊢
  generalize s.mapScreens f = v at hf hg
  rw [hg, hf, State.withScreens_withScreens]
  unfold State.withScreens
  dsimp only

theorem State.beforeTests_frame (s : State) : s.beforeTests = s.advanced.withScreens s.beforeTests.screens := by
  unfold State.beforeTests
  unfold State.formSetpoints State.windowTests
  exact State.mapScreens_twice _ _ _

theorem State.advanced_frame (s : State) : s.advanced = { s with
    pos := s.pos.advance, screens := s.advanced.screens
    phase := { s.phase with highWater := s.advanced.phase.highWater }
    ring := { s.ring with faults := s.advanced.ring.faults }, web := s.advanced.web, reports := s.advanced.reports
    ports := s.advanced.ports } ∧ Latches s s.advanced := by
  have hposition : s.advancePosition = { s with pos := s.pos.advance, ports := s.advancePosition.ports } := by
    unfold State.advancePosition
    cases s.pos.motionClamp <;> rfl
  have hlatches : Latches s s.advancePosition := .trans (.of_ports rfl) (.latchIf _ _ (s.withPos s.pos.advance))
  obtain ⟨hframe, hlatches', -⟩ : CycleOnly s.advancePosition s.advanced := .advanceChannels s.pos.deltaP s.advancePosition
  refine ⟨?_, hlatches.trans hlatches'⟩
  generalize s.advanced = a at hframe ⊢
  generalize s.advancePosition = b at hframe hposition
  rw [hframe, hposition]

/-- What the tests read, from the states before and after the cycle. -/
theorem State.beforeTests_read (s : State) :
    s.beforeTests.web = { s.webFound s.driveCycle with queue := s.advanced.web.queue }
    ∧ s.beforeTests.web.lineState = s.web.lineState ∧ s.beforeTests.reports = (s.found s.driveCycle).reports
    ∧ s.beforeTests.line = s.line ∧ s.beforeTests.cure = s.cure ∧ s.beforeTests.oven = s.oven
    ∧ s.beforeTests.pos = s.driveCycle.pos ∧ ∀ n, (s.beforeTests.port n).role = (s.port n).role := by
  have hpos : s.advanced.pos = s.driveCycle.pos := by rw [State.advanced_pos, State.advancePosition_pos, State.driveCycle_pos]
  have hweb := s.advanced_finds.web
  have hline := s.advanced_sameRun.lineState
  have hreports := s.advanced_reports
  obtain ⟨hframe, hlatches⟩ := s.advanced_frame
  have hkept : s.advanced.line = s.line ∧ s.advanced.cure = s.cure ∧ s.advanced.oven = s.oven := by
    generalize s.advanced = a at hframe
    rw [hframe]
    exact ⟨rfl, rfl, rfl⟩
  obtain ⟨hsettings, hcure, hoven⟩ := hkept
  rw [State.beforeTests_frame, State.withScreens_web, State.withScreens_reports, State.withScreens_line,
    State.withScreens_cure, State.withScreens_oven, State.withScreens_pos]
  refine ⟨hweb, hline, hreports, hsettings, hcure, hoven, hpos, fun n => ?_⟩
  rw [State.port_withScreens]
  exact (hlatches.keeps n).1

theorem State.beforeTests_latched (s : State) (n : PortId) {e : EventKind} (he : e ∉ [EventKind.motionClamp, .screenFault]) :
    hasKind (s.beforeTests.port n).latched e ↔ hasKind ((s.found s.driveCycle).port n).latched e := by
  rw [← s.advanced_found_latches e he n, State.beforeTests_frame, State.port_withScreens]

/-! ### What leaves (R92, R100) -/

/-- The queue after the camera test of a cycle. -/
def State.cycleQueue (s : State) : List Segment := s.beforeTests.afterCamera.web.queue

/-- The number of the records that leave in a cycle. -/
def State.cycleGone (s : State) : Nat :=
  (s.cycleQueue.takeWhile (Segment.dueBy s.driveCycle.pos.p s.beforeTests.exitPoint)).length

theorem takeWhile_split (p : Segment → Bool) (q : List Segment) : q.take (q.takeWhile p).length = q.takeWhile p
    ∧ q.drop (q.takeWhile p).length = q.dropWhile p ∧ (q.takeWhile p).length ≤ q.length := by
  have hsplit : q.takeWhile p ++ q.dropWhile p = q := List.takeWhile_append_dropWhile
  have hlength : q.length = (q.takeWhile p).length + (q.dropWhile p).length := by
    rw [← List.length_append, hsplit]
  refine ⟨?_, ?_, by omega⟩
  · have htake : q.take (q.takeWhile p).length = (q.takeWhile p ++ q.dropWhile p).take (q.takeWhile p).length := by
      rw [hsplit]
    rw [htake, List.take_left]
  · have hdrop : q.drop (q.takeWhile p).length = (q.takeWhile p ++ q.dropWhile p).drop (q.takeWhile p).length := by
      rw [hsplit]
    rw [hdrop, List.drop_left]

theorem State.cycleQueue_eq (s : State) : s.cycleQueue = if s.web.lineState = .setup then s.advanced.web.queue
    else s.advanced.web.queue.map (Segment.seenAt s.driveCycle.pos.p s.line.xInsp) := by
  obtain ⟨hweb, hline, -, hsettings, -, -, hpos, -⟩ := s.beforeTests_read
  unfold State.cycleQueue
  rw [State.afterCamera_web]
  dsimp only
  rw [hline, hsettings, hpos, hweb]

theorem State.cycleQueue_length (s : State) : s.cycleQueue.length = (s.webFound s.driveCycle).queue.length := by
  have hsame := congrArg List.length s.advanced_finds.queue
  simp only [unprinted, List.length_map] at hsame
  rw [State.cycleQueue_eq, ← hsame]
  split_ifs
  · rfl
  · rw [List.length_map]

/-- A record after the crossings and the camera test: its printed set and its camera flag alone may have changed. -/
theorem State.cycleQueue_record {i : Nat} {g g' : Segment} (hg : (s.webFound s.driveCycle).queue[i]? = some g)
    (hg' : s.cycleQueue[i]? = some g') :
    g' = { g with printed := g'.printed, camera := g'.camera }
    ∧ (∀ k, inSet g'.printed k = true ↔ inSet g.printed k = true
        ∨ (s.marks s.driveCycle k ∧ g.start ≤ s.driveCycle.design k ∧ s.driveCycle.design k < g.start + g.length))
    ∧ (g'.camera = true ↔ g.camera = true
        ∨ (s.web.lineState ≠ .setup ∧ s.line.xInsp ≤ s.driveCycle.pos.p - g.start)) := by
  rw [State.cycleQueue_eq] at hg'
  by_cases hsetup : s.web.lineState = .setup
  · rw [if_pos hsetup] at hg'
    have hsame := unprinted_getElem? s.advanced_finds.queue hg hg'
    have hcamera : g'.camera = g.camera := by rw [hsame]
    refine ⟨by rw [hcamera]; exact hsame, State.advanced_marked hg hg', ?_⟩
    rw [hcamera]
    exact ⟨.inl, fun h => h.elim id fun hc => absurd hsetup hc.1⟩
  · rw [if_neg hsetup, List.getElem?_map] at hg'
    obtain ⟨h, hh, rfl⟩ := Option.map_eq_some_iff.mp hg'
    have hsame := unprinted_getElem? s.advanced_finds.queue hg hh
    have hmarked := State.advanced_marked hg hh
    refine ⟨?_, hmarked, ?_⟩
    · unfold Segment.seenAt
      rw [hsame]
    · unfold Segment.seenAt
      rw [hsame]
      simp [hsetup]

theorem State.cycleExit (s : State) :
    s.beforeTests.exitPoint = if s.web.lineState = .setup then none else s.oven.exit := by
  obtain ⟨-, hline, -, -, -, hoven, -, -⟩ := s.beforeTests_read
  unfold State.exitPoint
  rw [hline, hoven]

/-- The exits of a cycle. -/
theorem State.cycle_exits (s : State) :
    ExitsTo s.beforeTests.afterCamera ⟨(s.webFound s.driveCycle).rolls, []⟩ noKind s.beforeTests.afterCamera
      (s.cycleQueue.take s.cycleGone) (s.cycleQueue.drop s.cycleGone) s.beforeFrame := by
  obtain ⟨hweb, -, -, -, -, -, hpos, -⟩ := s.beforeTests_read
  obtain ⟨htake, hdrop, -⟩ :=
    takeWhile_split (Segment.dueBy s.driveCycle.pos.p s.beforeTests.exitPoint) s.cycleQueue
  have hrolls : (s.webFound s.driveCycle).rolls = s.beforeTests.afterCamera.web.rolls := by
    rw [State.afterCamera_web, hweb]
  have hexits := ExitsTo.webTests s.beforeTests
  rw [hpos, ← State.beforeFrame_eq, ← hrolls] at hexits
  unfold State.cycleGone
  rw [htake, hdrop]
  exact hexits

theorem State.cycleGone_le (s : State) : s.cycleGone ≤ s.cycleQueue.length :=
  (takeWhile_split (Segment.dueBy s.driveCycle.pos.p s.beforeTests.exitPoint) s.cycleQueue).2.2

theorem State.cycleGone_of_no_exit (h : s.web.lineState = .setup ∨ s.oven.exit = none) : s.cycleGone = 0 := by
  have hnone : s.beforeTests.exitPoint = none := by
    rw [State.cycleExit]
    rcases h with h | h
    · rw [if_pos h]
    · rw [h, ite_self]
  unfold State.cycleGone
  rw [hnone]
  cases s.cycleQueue <;> rfl

theorem dueBy_split (p exit : Int) (q : List Segment) :
    (∀ g ∈ q.takeWhile (Segment.dueBy p (some exit)), exit ≤ p - g.start - g.length)
    ∧ ∀ g ∈ (q.dropWhile (Segment.dueBy p (some exit))).head?, p - g.start - g.length < exit := by
  have hdue : ∀ g, Segment.dueBy p (some exit) g = true ↔ exit ≤ p - g.start - g.length := fun g => decide_eq_true_iff
  refine ⟨fun g hg => (hdue g).mp (List.mem_takeWhile_imp hg), fun g hg => ?_⟩
  have hnot := List.head?_dropWhile_not (Segment.dueBy p (some exit)) q
  rw [Option.mem_def.mp hg] at hnot
  exact not_le.mp fun hle => by simp [(hdue g).mpr hle] at hnot

/-- At an exit what leaves is due, and the head that stays is not (R100). -/
theorem State.cycleGone_due {exit : Int} (hline : s.web.lineState ≠ .setup) (hexit : s.oven.exit = some exit) :
    (∀ g ∈ s.cycleQueue.take s.cycleGone, exit ≤ s.driveCycle.pos.p - g.start - g.length)
    ∧ ∀ g ∈ (s.cycleQueue.drop s.cycleGone).head?, s.driveCycle.pos.p - g.start - g.length < exit := by
  have hpoint : s.beforeTests.exitPoint = some exit := by rw [State.cycleExit, if_neg hline, hexit]
  obtain ⟨htake, hdrop, -⟩ := takeWhile_split (Segment.dueBy s.driveCycle.pos.p (some exit)) s.cycleQueue
  unfold State.cycleGone
  rw [hpoint, htake, hdrop]
  exact dueBy_split _ exit _

/-- A drain completes when records leave and none stays. -/
theorem State.cycle_drains (s : State) :
    (s.web.lineState = .drain ∧ s.cycleGone ≠ 0 ∧ s.cycleGone = s.cycleQueue.length) ↔
      (s.beforeTests.afterCamera.web.lineState = .drain ∧ s.cycleQueue.take s.cycleGone ≠ []
        ∧ s.cycleQueue.drop s.cycleGone = []) := by
  obtain ⟨-, hline, -⟩ := s.beforeTests_read
  have hle := s.cycleGone_le
  have hcamera : s.beforeTests.afterCamera.web.lineState = s.web.lineState := by rw [State.afterCamera_web, ← hline]
  rw [hcamera, List.drop_eq_nil_iff, ← List.length_pos_iff_ne_nil, List.length_take]
  exact and_congr_right fun _ => ⟨fun ⟨h1, h2⟩ => by omega, fun ⟨h1, h2⟩ => by omega⟩

end
end Sys2Proof.Machine
end

section
/-! PROOFS. The statement on the records of a drive cycle. -/

namespace Sys2Proof.Machine

section
variable (s : State)

/-- The frame and the evaluations after the tests of a cycle leave the web, the reports and the latched sets. -/
theorem State.driveCycle_outcome : s.driveCycle.web = s.beforeFrame.web ∧ s.driveCycle.reports = s.beforeFrame.reports
    ∧ ∀ n, (s.driveCycle.port n).latched = (s.beforeFrame.port n).latched := by
  rw [State.driveCycle_of_beforeFrame]
  refine ⟨by rw [State.framed_eq], by rw [State.framed_eq], fun n => ?_⟩
  obtain ⟨line, hport⟩ := s.beforeFrame.framed_port n
  rw [hport]

theorem State.afterCamera_role (n : PortId) : (s.beforeTests.afterCamera.port n).role = (s.port n).role := by
  obtain ⟨-, -, -, -, -, -, -, hrole⟩ := s.beforeTests_read
  rw [(s.beforeTests.afterCamera_webOnly.2.keeps n).1, hrole]

/-- The ledger that the leavings of a cycle post, and its closing with a drain that they complete. -/
def State.cycleLedger : Ledger :=
  Ledger.exits s.line s.cure (s.cycleQueue.drop s.cycleGone) (s.cycleQueue.take s.cycleGone)
    ⟨(s.webFound s.driveCycle).rolls, []⟩

/-- A cycle completes a drain. -/
abbrev State.cycleDrains : Prop :=
  s.web.lineState = .drain ∧ s.cycleGone ≠ 0 ∧ s.cycleGone = s.cycleQueue.length

/-- The books of a cycle's leavings, kept from the state that the camera test leaves. -/
theorem State.cycle_books : Books s.beforeTests.afterCamera (s.cycleLedger.drainIf s.cycleDrains)
    (fun e => ((∃ g ∈ s.cycleQueue.take s.cycleGone, (gradeOf (faultsOf s.line s.cure .exit g)).isCure = true)
        ∧ e = .cureFault) ∨ (s.cycleDrains ∧ e = .drainDone)) s.beforeFrame := by
  obtain ⟨-, -, -, hsettings, hcure, -⟩ := s.beforeTests_read
  have hframe := s.beforeTests.afterCamera_webOnly.1
  have hsettings' : s.beforeTests.afterCamera.line = s.line := by rw [hframe, ← hsettings]
  have hcure' : s.beforeTests.afterCamera.cure = s.cure := by rw [hframe, ← hcure]
  have hbooks := s.cycle_exits.books
  rw [hsettings', hcure'] at hbooks
  have hledger : s.cycleLedger.drainIf s.cycleDrains = Ledger.drainIf (s.beforeTests.afterCamera.web.lineState = .drain
      ∧ s.cycleQueue.take s.cycleGone ≠ [] ∧ s.cycleQueue.drop s.cycleGone = []) s.cycleLedger :=
    if_congr s.cycle_drains rfl rfl
  rw [hledger]
  refine hbooks.mono fun e => ?_
  rw [← s.cycle_drains]
  unfold noKind
  rw [false_or]

theorem State.cycle_lineState :
    s.driveCycle.web.lineState = if s.cycleDrains then .setup else s.web.lineState := by
  obtain ⟨-, hline, -⟩ := s.beforeTests_read
  have hcamera : s.beforeTests.afterCamera.web.lineState = s.web.lineState := by rw [State.afterCamera_web, ← hline]
  rw [s.driveCycle_outcome.1, s.cycle_exits.lineState]
  exact if_congr s.cycle_drains.symm rfl hcamera

/-- The latched sets after a cycle, for the kinds that its crossings do not latch. -/
theorem State.cycle_latched (n : PortId) {e : EventKind} (he : e ∉ [EventKind.motionClamp, .screenFault, .segmentAtCamera]) :
    hasKind (s.driveCycle.port n).latched e ↔ hasKind ((s.found s.driveCycle).port n).latched e ∨ ((s.port n).role.sees e
      ∧ ((e = .rollClosed ∧ ∃ r ∈ (s.cycleLedger.drainIf s.cycleDrains).offered, r.isRoll)
        ∨ (e = .reportLost
            ∧ overflows (s.found s.driveCycle).reports (s.cycleLedger.drainIf s.cycleDrains).offered)
        ∨ ((∃ g ∈ s.cycleQueue.take s.cycleGone, (gradeOf (faultsOf s.line s.cure .exit g)).isCure = true)
            ∧ e = .cureFault)
        ∨ (s.cycleDrains ∧ e = .drainDone))) := by
  obtain ⟨-, -, hreports, -⟩ := s.beforeTests_read
  simp only [List.mem_cons, List.not_mem_nil, or_false, not_or] at he
  obtain ⟨hclamp, hfault, hcamera⟩ := he
  have hfound := s.beforeTests_latched n (e := e) (by simp [hclamp, hfault])
  have htested : hasKind (s.beforeTests.afterCamera.port n).latched e ↔ hasKind (s.beforeTests.port n).latched e := by
    rw [State.afterCamera_latched]
    exact or_iff_left fun hc => hcamera hc.1
  rw [s.driveCycle_outcome.2.2, s.cycle_books.latched, htested, hfound, State.afterCamera_role, State.afterCamera_reports,
    hreports]

/-- SEGMENT_AT_CAMERA after a cycle (R99). -/
theorem State.cycle_camera (n : PortId) : hasKind (s.driveCycle.port n).latched .segmentAtCamera ↔
    hasKind (s.port n).latched .segmentAtCamera
    ∨ ((s.port n).role.sees .segmentAtCamera ∧ s.web.lineState ≠ .setup
        ∧ ∃ g ∈ (s.webFound s.driveCycle).queue, g.camera = false ∧ s.line.xInsp ≤ s.driveCycle.pos.p - g.start) := by
  obtain ⟨hweb, hline, -, hsettings, -, -, hpos, hrole⟩ := s.beforeTests_read
  have hexits : hasKind (s.driveCycle.port n).latched .segmentAtCamera ↔
      hasKind (s.beforeTests.afterCamera.port n).latched .segmentAtCamera := by
    rw [s.driveCycle_outcome.2.2, s.cycle_books.latched]
    simp
  have hfound : hasKind ((s.found s.driveCycle).port n).latched .segmentAtCamera ↔
      hasKind (s.port n).latched .segmentAtCamera := by
    rcases s.found_cases s.driveCycle with ⟨-, h⟩ | ⟨-, h⟩ <;> rw [h]
    rw [State.afterCreation_eq, LatchesOnly.create _ _ (by decide) n, State.creationBase_port]
  have hany : (∃ g ∈ s.beforeTests.web.queue, g.camera = false ∧ s.line.xInsp ≤ s.driveCycle.pos.p - g.start) ↔
      ∃ g ∈ (s.webFound s.driveCycle).queue, g.camera = false ∧ s.line.xInsp ≤ s.driveCycle.pos.p - g.start := by
    have hread : ∀ q : List Segment,
        (∃ g ∈ unprinted q, g.camera = false ∧ s.line.xInsp ≤ s.driveCycle.pos.p - g.start) ↔
        ∃ g ∈ q, g.camera = false ∧ s.line.xInsp ≤ s.driveCycle.pos.p - g.start := by
      intro q
      unfold unprinted
      simp only [List.mem_map, exists_exists_and_eq_and]
    rw [← hread s.beforeTests.web.queue, hweb, s.advanced_finds.queue, hread]
  rw [hexits, State.afterCamera_latched, s.beforeTests_latched n (by decide), hfound, hrole, hline, hsettings, hpos, hany]
  simp only [true_and]

end

theorem overflows_iff (reports offered : List Report) :
    overflows reports offered ↔ offered ≠ [] ∧ 32 < reports.length + offered.length := by
  unfold overflows
  rw [← List.length_pos_iff_ne_nil]
  omega

end Sys2Proof.Machine

/-! ### The statements -/

open Sys2Proof Sys2Proof.Machine

/-- Settles O12: `all` is the queue after the camera test, m the length of its run of due records; the exits post the
ledger of that run. -/
theorem driveCycleLeavesNoRecordDue : Obligations.DriveCycleLeavesNoRecordDue := by
  unfold Obligations.DriveCycleLeavesNoRecordDue
  intro s hrun
  obtain ⟨-, -, hfoundReports, -⟩ := s.beforeTests_read
  obtain ⟨hweb, hreports, -⟩ := s.driveCycle_outcome
  have hqueue : s.driveCycle.web.queue = s.cycleQueue.drop s.cycleGone := by rw [hweb, s.cycle_exits.queue]
  have hlineState := s.cycle_lineState
  have hbooks := s.cycle_books
  have hledger : s.cycleLedger.drainIf s.cycleDrains
      = if s.web.lineState = .drain ∧ s.cycleGone ≠ 0 ∧ s.cycleGone = s.cycleQueue.length then s.cycleLedger.drain
        else s.cycleLedger := rfl
  refine ⟨_, s.cycleQueue, s.cycleGone, exec_driveCycle_running s hrun, s.cycleQueue_length, s.cycleGone_le, hqueue,
    fun i g g' hg hg' => State.cycleQueue_record hg hg', s.cycle_camera, State.cycleGone_of_no_exit,
    fun hline exit hexit => ?_, fun hstay => hlineState.trans (if_neg hstay), fun hdrain hgone hall => ⟨?_, ?_, ?_⟩,
    s.cycleLedger, s.cycleLedger.drainIf s.cycleDrains, rfl, hledger, ?_, ?_, fun n => ⟨?_, ?_, ?_⟩⟩
  · rw [hqueue]
    exact State.cycleGone_due hline hexit
  · exact hlineState.trans (if_pos ⟨hdrain, hgone, hall⟩)
  · rw [hweb, hbooks.rolls, hledger, if_pos ⟨hdrain, hgone, hall⟩, Ledger.drain_rolls]
  · intro n hsees
    rw [s.cycle_latched n (by decide)]
    exact .inr ⟨hsees, .inr (.inr (.inr ⟨⟨hdrain, hgone, hall⟩, rfl⟩))⟩
  · rw [hweb, hbooks.rolls]
  · rw [hreports, hbooks.reports, State.afterCamera_reports, hfoundReports]
  · rw [s.cycle_latched n (by decide)]
    simp
  · rw [s.cycle_latched n (by decide), overflows_iff]
    simp
  · rw [s.cycle_latched n (by decide)]
    simp [Grade.isCure_iff]
end

section
/-! PROOFS. The statement on creations: the record that one appends, the roll it joins, and the creation of a drive cycle. -/

namespace Sys2Proof.Machine

section
variable {s : State}

/-! ### The record that a creation appends (R94 to R97, R103) -/

theorem State.createdSegment_eq (s : State) : s.createdSegment = { s.createdSegment with
    seq := s.web.nextSeq, length := (s.screen 0).chan.lcur, stretch := s.phase.stretch, expected := s.planned
    printed := if s.engState 0 = .printing then 1 else 0, regs := [], camera := false, dose := 0, peak := 0
    cureUnknown := false } := by
  have hmark : addTo 0 0 = (1 : ScreenSet) := by decide
  unfold State.createdSegment State.segmentOn State.newSegment
  dsimp only
  rw [hmark]
  rfl

theorem State.createdSegment_start (s : State) : s.createdSegment.start =
    match s.roomQueue.getLast? with
    | some g => g.start + g.length
    | none => s.pos.p - (s.screen 0).chan.r := rfl

theorem State.createdSegment_roll (s : State) : s.createdSegment.roll =
    ((rollFor s.roomLedger.rolls (s.createdSegment.start + s.createdSegment.length - 1)).map Roll.id).getD 0 := rfl

theorem State.createdSegment_seam (s : State) : s.createdSegment.seam =
    seamWithin s.roomLedger.rolls s.createdSegment.start (s.createdSegment.start + s.createdSegment.length - 1) := rfl

/-- The new record starts where the tail of the queue ends; an eviction leaves the tail (R96). -/
theorem State.createdSegment_follows {tail : Segment} (h : tail ∈ s.web.queue.getLast?) :
    s.createdSegment.start = tail.start + tail.length := by
  have hroom : s.roomQueue.getLast? = some tail := by
    unfold State.roomQueue
    split_ifs with hfull
    · rcases hq : s.web.queue with _ | ⟨g, _ | ⟨g', rest⟩⟩
      · rw [hq] at hfull
        exact absurd hfull (by decide)
      · rw [hq] at hfull
        exact absurd hfull (by simp)
      · rw [hq] at h
        exact h
    · exact h
  rw [State.createdSegment_start, hroom]

theorem State.createdSegment_opens (h : s.web.queue = []) : s.createdSegment.start = s.pos.p - (s.screen 0).chan.r := by
  have hroom : s.roomQueue = [] := by
    unfold State.roomQueue
    rw [h]
    rfl
  rw [State.createdSegment_start, hroom]
  rfl

theorem seamWithin_iff {rolls : List Roll} {start length : Int} : seamWithin rolls start (start + length - 1) = true ↔
    ∃ r ∈ rolls, ∃ c, r.seamAt = some c ∧ start ≤ c ∧ c < start + length := by
  unfold seamWithin
  rw [List.any_eq_true]
  refine exists_congr fun r => and_congr_right fun _ => ?_
  cases r.seamAt with
  | none => simp
  | some c => simp

/-- The roll for a coordinate is the last of the table that may hold it, else the first (R103, assumption log 31). -/
theorem rollFor_of_split {before after : List Roll} {r : Roll} {last : Int} (hr : before = [] ∨ r.mayHold last)
    (hafter : ∀ x ∈ after, ¬ x.mayHold last) : rollFor (before ++ r :: after) last = some r := by
  have hnone : after.filter (Roll.opensBy last) = [] :=
    List.filter_eq_nil_iff.mpr fun x hx hopens => hafter x hx ((x.opensBy_iff last).mp hopens)
  unfold rollFor
  rw [List.filter_append, List.filter_cons, hnone]
  by_cases hopens : r.opensBy last = true
  · rw [if_pos hopens, List.getLast?_append]
    rfl
  · have hbefore := hr.resolve_right fun h => hopens ((r.opensBy_iff last).mpr h)
    rw [if_neg hopens, hbefore]
    rfl

/-! ### The roll it joins (R95, R106) -/

theorem holdsRoll_concat {queue : List Segment} {g : Segment} {x : Roll} (h : x.id ≠ g.roll) :
    holdsRoll (queue ++ [g]) x = queue.any fun q => q.roll == x.id := by
  unfold holdsRoll
  rw [List.any_append]
  simp [Ne.symm h]

/-- The ledger of a creation whose record joins this roll. -/
theorem State.createdLedger_eq {before after : List Roll} {r : Roll} (hsplit : s.roomLedger.rolls = before ++ r :: after)
    (hroll : s.createdSegment.roll = r.id) (hnodup : (s.roomLedger.rolls.map Roll.id).Nodup) :
    s.createdLedger = ⟨(before.filter fun x => s.roomQueue.any fun q => q.roll == x.id)
        ++ r.gain s.createdSegment.seq :: after,
      s.roomLedger.offered ++ (before.filter fun x => s.roomQueue.all fun q => q.roll != x.id).map fun x =>
        .roll (rollReport .nextRoll x)⟩ := by
  have hledger : s.roomLedger = ⟨before ++ r :: after, s.roomLedger.offered⟩ := by rw [← hsplit]
  rw [hsplit] at hnodup
  have hother : ∀ x ∈ before, x.id ≠ s.createdSegment.roll := by
    intro x hx heq
    rw [List.map_append, List.map_cons] at hnodup
    exact (List.nodup_append.mp hnodup).2.2 _ (List.mem_map_of_mem hx) _ List.mem_cons_self (heq.trans hroll)
  unfold State.createdLedger
  rw [hledger, Ledger.joins_eq hnodup hroll]
  have hkept : before.filter (holdsRoll (s.roomQueue ++ [s.createdSegment]))
      = before.filter fun x => s.roomQueue.any fun q => q.roll == x.id :=
    List.filter_congr fun x hx => holdsRoll_concat (hother x hx)
  have hclosed : before.filter (fun x => !holdsRoll (s.roomQueue ++ [s.createdSegment]) x)
      = before.filter fun x => s.roomQueue.all fun q => q.roll != x.id :=
    List.filter_congr fun x hx => by
      rw [holdsRoll_concat (hother x hx), List.not_any_eq_all_not]
      rfl
  rw [hkept, hclosed]

/-- The ledger and the queue in which a creation finds room are those that the statement names. -/
theorem State.room_named {l : Ledger} {queue : List Segment}
    (hroom : s.web.queue.length < 256 → l = ⟨s.web.rolls, []⟩ ∧ queue = s.web.queue)
    (hfull : ∀ head rest, 256 ≤ s.web.queue.length → s.web.queue = head :: rest →
      l = (Ledger.leave s.line s.cure .evicted head ⟨s.web.rolls, []⟩).nextRoll rest head.roll ∧ queue = rest) :
    l = s.roomLedger ∧ queue = s.roomQueue := by
  unfold State.roomLedger State.roomQueue State.evictLedger
  split_ifs with hlength
  · rcases hq : s.web.queue with _ | ⟨head, rest⟩
    · rw [hq] at hlength
      exact absurd hlength (by decide)
    · exact hfull head rest hlength hq
  · exact hroom (not_le.mp hlength)

/-- ROLL_CLOSED after a creation (R158). -/
theorem State.create_rollClosed (hexhausted : s.web.exhausted = false) (n : PortId) :
    hasKind (s.create.port n).latched .rollClosed ↔ hasKind (s.port n).latched .rollClosed
      ∨ ((s.port n).role.sees .rollClosed ∧ ∃ x ∈ s.createdLedger.offered, x.isRoll) := by
  rw [(Books.create hexhausted).latched]
  simp [State.createdKinds]

theorem State.create_latches (hexhausted : s.web.exhausted = false) {e : EventKind} (he : s.createdKinds e) (n : PortId)
    (hsees : (s.port n).role.sees e) : hasKind (s.create.port n).latched e :=
  ((Books.create hexhausted).latched n e).mpr (.inr ⟨hsees, .inr (.inr he)⟩)

/-! ### The creation of a drive cycle (R38) -/

theorem offeredTo_prefix (reports offered : List Report) : reports <+: offeredTo reports offered := by
  unfold offeredTo
  rw [List.take_append, List.take_of_length_le (le_max_right _ _)]
  exact List.prefix_append _ _

/-- After the crossings no stage of a cycle moves the next seq. -/
theorem State.driveCycle_seqs (s : State) : s.driveCycle.web.nextSeq = (s.webFound s.driveCycle).nextSeq
    ∧ s.driveCycle.web.exhausted = (s.webFound s.driveCycle).exhausted := by
  obtain ⟨hweb, -⟩ := s.beforeTests_read
  have hthins := Thins.webTests s.beforeTests
  rw [s.driveCycle_outcome.1, State.beforeFrame_eq, hthins.nextSeq, hthins.exhausted, hweb]
  exact ⟨rfl, rfl⟩

theorem State.driveCycle_reports (s : State) :
    s.driveCycle.reports = offeredTo (s.found s.driveCycle).reports (s.cycleLedger.drainIf s.cycleDrains).offered := by
  obtain ⟨-, -, hreports, -⟩ := s.beforeTests_read
  rw [s.driveCycle_outcome.2.1, s.cycle_books.reports, State.afterCamera_reports, hreports]

/-- Where no record leaves, the rolls stand as the crossings left them. -/
theorem State.driveCycle_rolls (h : s.cycleGone = 0) : s.driveCycle.web.rolls = (s.webFound s.driveCycle).rolls := by
  have hdrains : ¬ s.cycleDrains := fun hd => hd.2.1 h
  rw [s.driveCycle_outcome.1, s.cycle_books.rolls]
  unfold Ledger.drainIf
  rw [if_neg hdrains]
  unfold State.cycleLedger
  rw [h]
  rfl

/-- What the crossings of a cycle find latched stays latched. -/
theorem State.driveCycle_keeps_latched (n : PortId) {e : EventKind}
    (h : hasKind ((s.found s.driveCycle).port n).latched e) : hasKind (s.driveCycle.port n).latched e := by
  by_cases he : e ∈ [EventKind.motionClamp, .screenFault]
  · refine (s.driveCycle_port_kept n).2.2 e ?_
    rcases s.found_cases s.driveCycle with ⟨-, hfound⟩ | ⟨-, hfound⟩ <;> rw [hfound] at h
    · have hother : e ∉ [EventKind.reportLost, .cureFault, .segmentEvicted, .rollClosed, .seqExhausted] := by
        simp only [List.mem_cons, List.not_mem_nil, or_false] at he
        rcases he with rfl | rfl <;> decide
      rwa [State.afterCreation_eq, LatchesOnly.create _ _ hother n, State.creationBase_port] at h
    · exact h
  · have htests := (WebOnly.webTests s.beforeTests).2
    rw [s.driveCycle_outcome.2.2, State.beforeFrame_eq]
    exact (htests n).2.1 e ((s.beforeTests_latched n he).mpr h)

/-- New ground: channel 0 counts one repeat more, of length L_fab, and the high-water mark is that count (R38). -/
theorem State.driveCycle_ground (h : s.handsNewGround s.driveCycle) :
    s.driveCycle.phase.highWater = (s.driveCycle.screen 0).chan.n
    ∧ (s.driveCycle.screen 0).chan.n = (s.screen 0).chan.n + 1
    ∧ (s.driveCycle.screen 0).chan.lcur = s.phase.lFab := by
  obtain ⟨u, hu⟩ := s.advancePosition.exists_meets s.pos.deltaP 0
  obtain ⟨hcross, hline, hmark⟩ := h
  have hnew : s.handsNewGround s.driveCycle := ⟨hcross, hline, hmark⟩
  have hle := (State.crossesForward_iff.mp hcross).2
  have hchan := State.CycleMeets.channel hu hcross.1
  obtain ⟨-, hn, hlcur, -⟩ := Screen.cycledChan_forward (length := u.crossingLength 0 (s.cycleChange 0)) hcross.1 hle
  rw [← hchan] at hn hlcur
  have hhigh : s.driveCycle.phase.highWater = (s.screen 0).chan.n + 1 := by
    have hslew : (s.advancePosition.slewAll.screen 0).chan.n = (s.screen 0).chan.n := by
      rw [State.screen_slewAll, State.screen_advancePosition]
      exact (s.screen 0).slew_same.2.2.2.2.2
    have hpoint := State.keyFound_frame
      ((s.advancePosition.slewAll.screen 0).chan.r + s.cycleChange 0) s.advancePosition.slewAll
    have hcreate := (WebOnly.create s.creationPoint).1
    rw [State.driveCycle_highWater, State.keyed_of_ground hnew, hcreate]
    unfold State.creationPoint
    rw [hpoint, hslew]
  exact ⟨hhigh.trans hn.symm, hn, hlcur.trans (State.CycleMeets.crossingLength hu hcross ⟨rfl, hnew⟩)⟩

end
end Sys2Proof.Machine

/-! ### The statements -/

open Sys2Proof Sys2Proof.Machine

/-- Settles O11: the first part by the record that a creation forms and the ledger it posts; the second by the Web Map
that the crossings of a cycle leave, and by what its tests keep of it. -/
theorem creationAppendsOneRecord : Obligations.CreationAppendsOneRecord := by
  unfold Obligations.CreationAppendsOneRecord
  refine ⟨?_, fun s hrun => ⟨_, exec_driveCycle_running s hrun, fun hground => ?_, fun hground => ?_⟩⟩
  · rintro s t rfl
    refine ⟨fun hexhausted => ?_, fun hexhausted => ⟨s.createdSegment, fun hroom => ?_, fun hfull => ⟨?_, ?_⟩,
      s.createdSegment_eq, fun tail => State.createdSegment_follows, State.createdSegment_opens,
      fun l queue hl hl' => ?_, fun hlast => ?_, fun hlast => ?_⟩⟩
    · have hcreate : s.create = s.latch .seqExhausted := if_pos hexhausted
      rw [hcreate]
      exact ⟨State.latch_web _ _, fun n hsees => (State.hasKind_latch _ _ _ _).mpr (.inr ⟨rfl, hsees⟩)⟩
    · rw [State.create_queue hexhausted]
      unfold State.roomQueue
      rw [if_neg hroom.not_ge]
    · rw [State.create_queue hexhausted]
      unfold State.roomQueue
      rw [if_pos hfull]
    · exact State.create_latches hexhausted (.inl ⟨hfull, rfl⟩)
    · obtain ⟨rfl, rfl⟩ := State.room_named hl hl'
      refine ⟨by rw [State.createdSegment_seam, seamWithin_iff], fun before after r hsplit hr hafter => ?_⟩
      have hroll : s.createdSegment.roll = r.id := by
        rw [State.createdSegment_roll, hsplit, rollFor_of_split hr hafter]
        rfl
      refine ⟨hroll, fun hnodup closed hclosed => ?_⟩
      have hledger := State.createdLedger_eq hsplit hroll hnodup
      rw [← hclosed] at hledger
      have hbooks := Books.create hexhausted
      refine ⟨by rw [hbooks.rolls, hledger]; rfl, by rw [hbooks.reports, hledger], fun n => ?_⟩
      rw [State.create_rollClosed hexhausted, hledger]
      refine or_congr_right (and_congr_right fun _ => ?_)
      simp only [List.mem_append, List.mem_map, or_and_right, exists_or]
      rw [or_comm]
      refine or_congr_left ⟨?_, fun hne => ?_⟩
      · rintro ⟨_, ⟨x, hx, -⟩, -⟩
        exact List.ne_nil_of_mem hx
      · obtain ⟨x, hx⟩ := List.exists_mem_of_ne_nil _ hne
        exact ⟨_, ⟨x, hx, rfl⟩, trivial⟩
    · obtain ⟨-, hnext, hex⟩ | ⟨hne, -⟩ := State.create_seq hexhausted
      · exact ⟨hnext, hex, State.create_latches hexhausted (.inr ⟨hlast, rfl⟩)⟩
      · exact absurd hlast hne
    · obtain ⟨heq, -⟩ | ⟨-, hnext, hex⟩ := State.create_seq hexhausted
      · exact absurd heq hlast
      · exact ⟨hnext, hex⟩
  · obtain ⟨hnext, hex⟩ := s.driveCycle_seqs
    have hfound : s.webFound s.driveCycle = s.web := congrArg State.web (if_neg hground)
    rw [hfound] at hnext hex
    exact ⟨State.driveCycle_highWater_of_no_ground hground, hnext, hex⟩
  · obtain ⟨hhigh, hn, hlcur⟩ := State.driveCycle_ground hground
    obtain ⟨hnext, hex⟩ := s.driveCycle_seqs
    have hfound : s.found s.driveCycle = s.afterCreation s.driveCycle := if_pos hground
    have hreports := s.driveCycle_reports
    have hrolls := State.driveCycle_rolls (s := s)
    have hlength := s.cycleQueue_length
    have hkeeps := fun n e => State.driveCycle_keeps_latched (s := s) n (e := e)
    unfold State.webFound at hnext hex hrolls hlength
    rw [hfound] at hnext hex hreports hrolls hlength hkeeps
    have hqueue : s.driveCycle.web.queue.length = s.cycleQueue.length - s.cycleGone := by
      rw [s.driveCycle_outcome.1, s.cycle_exits.queue, List.length_drop]
    have hle := s.cycleGone_le
    generalize s.driveCycle = t at hhigh hn hlcur hnext hex hreports hrolls hlength hkeeps hqueue ⊢
    refine ⟨hhigh, hn, hlcur, hnext, hex, ?_, fun hsame => hrolls ?_, hkeeps⟩
    · rw [hreports]
      exact offeredTo_prefix _ _
    · omega
end

section
/-! PROOFS. A seam pulse: the cases in which it is ignored, the roll that a recorded seam opens, what it moves there and
the NEXT_ROLL test of the roll that gives records up; and its statement. -/

namespace Sys2Proof.Machine

section
variable {s : State} {c : Int}

theorem exec_seamPulse_running (h : s.inReset = false) : exec .seamPulse s = .next s.seamPulse :=
  congrArg Host.Outcome.next (if_neg (by simp [h]))

theorem State.seamTooClose_iff :
    s.seamTooClose c = true ↔ ∃ last, s.web.lastSeam = some last ∧ c < last + 2 * s.phase.lFab := by
  unfold State.seamTooClose
  cases s.web.lastSeam <;> simp

/-- A seam far enough from the last one is recorded where the table has room (R104). -/
theorem State.seamPulse_of_far (hseam : s.line.dSeam ≠ 0) (hline : s.web.lineState = .run)
    (hfar : ∀ last, s.web.lastSeam = some last → last + 2 * s.phase.lFab ≤ s.pos.p + s.line.dSeam) :
    s.seamPulse = if 8 ≤ s.web.rolls.length then (s.latch .rollTableFull).evalLines
      else (s.recordSeam (s.pos.p + s.line.dSeam)).evalLines := by
  have hclose : ¬ s.seamTooClose (s.pos.p + s.line.dSeam) = true := by
    rw [State.seamTooClose_iff]
    rintro ⟨last, hlast, hlt⟩
    exact absurd (hfar last hlast) (not_le.mpr hlt)
  rcases s.seamPulse_cases with ⟨h | h | h, -⟩ | ⟨-, -, -, hlength, h⟩ | ⟨-, -, -, hlength, h⟩
  · exact absurd h hseam
  · exact absurd hline h
  · exact absurd h hclose
  · rw [h, if_pos hlength]
  · rw [h, if_neg hlength.not_ge]

/-! ### The records and the rolls of a recorded seam (R105) -/

theorem Segment.seamed_eq (id : Nat) (c : Int) (g : Segment) : g.seamed id c =
    if c ≤ g.start + g.length - 1 then { g with roll := id, seam := g.seam || decide (g.start ≤ c) } else g := by
  unfold Segment.seamed Segment.lastCoord
  split_ifs with hc
  · have hholds : g.holds c = decide (g.start ≤ c) := by
      unfold Segment.holds
      simp
      omega
    rw [hholds]
  · rfl

theorem Books.seamed (c : Int) (s : State) : Books s
    ⟨seamedRolls (movedBy c s.web.queue) s.web.rolls ++ [seamRoll s.web.nextRollId c (movedBy c s.web.queue)], []⟩ noKind
    (s.seamed c) :=
  ((Books.opened s).withRolls _).withWeb _ rfl

/-- Of the Web Map the NEXT_ROLL test of a recorded seam touches the roll table alone. -/
theorem State.recordSeam_web (c : Int) (s : State) :
    (s.recordSeam c).web = { (s.seamed c).web with rolls := (s.recordSeam c).web.rolls } := by
  rcases s.recordSeam_cases c with ⟨-, h⟩ | ⟨f, -, -, h⟩ <;> rw [h]
  have hpasses := State.nextRollTest_passes f.id (s.seamed c)
  have hqueue := State.nextRollTest_queue f.id (s.seamed c)
  unfold WebMap.Passes at hpasses
  rw [hqueue] at hpasses
  exact hpasses

/-- The NEXT_ROLL test of one roll leaves another that stands last in the table. -/
theorem State.nextRollTest_getLast? {id : Nat} {r : Roll} (h : s.web.rolls.getLast? = some r) (hid : r.id ≠ id) :
    (s.nextRollTest id).web.rolls.getLast? = some r := by
  obtain ⟨init, hinit⟩ := List.getLast?_eq_some_iff.mp h
  rw [State.nextRollTest_eq]
  cases hclose : nextRollCloses s.web.queue id s.web.rolls with
  | none => exact h
  | some x =>
    obtain ⟨-, hx⟩ := nextRollCloses_mem hclose
    dsimp only
    rw [State.closeRoll_web, hinit, List.filter_append, hx]
    simp [hid]

/-- The roll that a recorded seam opens stands last. -/
theorem State.recordSeam_getLast? (hnew : ∀ r ∈ s.web.rolls, r.id ≠ s.web.nextRollId) :
    (s.recordSeam c).web.rolls.getLast? = some (seamRoll s.web.nextRollId c (movedBy c s.web.queue)) := by
  have hseamed : (s.seamed c).web.rolls.getLast? = some (seamRoll s.web.nextRollId c (movedBy c s.web.queue)) :=
    List.getLast?_concat
  rcases s.recordSeam_cases c with ⟨-, h⟩ | ⟨f, -, hf, h⟩ <;> rw [h]
  · exact hseamed
  · exact State.nextRollTest_getLast? hseamed (hnew f (List.mem_of_getLast? hf)).symm

/-- No record ends at or beyond the seam: the new roll is empty, and nothing else changes in the table. -/
theorem State.recordSeam_of_none (h : ∀ g ∈ s.web.queue, g.start + g.length - 1 < c) :
    (s.recordSeam c).web.rolls = s.web.rolls ++ [seamRoll s.web.nextRollId c []] ∧ (s.recordSeam c).reports = s.reports := by
  have hmoved : movedBy c s.web.queue = [] :=
    List.filter_eq_nil_iff.mpr fun g hg hc => absurd (h g hg) (not_lt.mpr (of_decide_eq_true hc))
  rcases s.recordSeam_cases c with ⟨-, hrecord⟩ | ⟨f, hne, -⟩
  · have hbooks := Books.seamed c s
    have hrolls : seamedRolls [] s.web.rolls = s.web.rolls := rfl
    rw [hmoved, hrolls] at hbooks
    rw [hrecord, hbooks.rolls, hbooks.reports, offeredTo_nil]
    exact ⟨rfl, rfl⟩
  · exact absurd hmoved hne

/-- The roll that gives up its records. -/
theorem seamedRolls_last {m : Segment} {rest : List Segment} {before : List Roll} {former : Roll}
    (h : ∀ r ∈ before, r.id ≠ former.id) : seamedRolls (m :: rest) (before ++ [former])
      = before ++ [former.lose (m :: rest).length m.seq] := by
  rw [seamedRolls_eq (f0 := former) List.getLast?_concat, List.map_append]
  have hkept : before.map (loseMoved (m :: rest) former.id) = before :=
    (List.map_congr_left fun r hr => if_neg (h r hr)).trans (List.map_id _)
  rw [hkept]
  unfold loseMoved
  simp

/-- Records move: the books of the seam are those of the NEXT_ROLL test of the former last roll. -/
theorem Books.recordSeam {m : Segment} {rest : List Segment} {before : List Roll} {former : Roll}
    (hmoved : movedBy c s.web.queue = m :: rest) (hrolls : s.web.rolls = before ++ [former])
    (hothers : ∀ r ∈ before, r.id ≠ former.id) : Books s
      (Ledger.nextRoll (s.recordSeam c).web.queue former.id
        ⟨before ++ [former.lose (m :: rest).length m.seq, seamRoll s.web.nextRollId c (m :: rest)], []⟩)
      noKind (s.recordSeam c) := by
  have hlast : s.web.rolls.getLast? = some former := by rw [hrolls, List.getLast?_concat]
  have hqueue : (s.recordSeam c).web.queue = (s.seamed c).web.queue := by rw [State.recordSeam_web]
  rw [hqueue]
  rcases s.recordSeam_cases c with ⟨hnone, -⟩ | ⟨f, -, hf, hrecord⟩
  · rcases hnone with hnone | hnone
    · rw [hmoved] at hnone
      cases hnone
    · rw [hnone] at hlast
      cases hlast
  · have hbooks := (Books.seamed c s).nextRollTest f.id
    obtain rfl : former = f := Option.some.inj (hlast.symm.trans hf)
    rw [hmoved, hrolls, seamedRolls_last hothers, List.append_assoc] at hbooks
    rw [hrecord]
    exact hbooks

/-- The NEXT_ROLL test of a fresh ledger offers a roll report or nothing. -/
theorem Ledger.nextRoll_offered (queue : List Segment) (id : Nat) (rolls : List Roll) :
    (∃ x ∈ (Ledger.nextRoll queue id ⟨rolls, []⟩).offered, x.isRoll) ↔ (Ledger.nextRoll queue id ⟨rolls, []⟩).offered ≠ [] := by
  unfold Ledger.nextRoll
  cases nextRollCloses queue id rolls with
  | none => simp
  | some r => simp [Report.isRoll]

end
end Sys2Proof.Machine

/-! ### The statements -/

open Sys2Proof Sys2Proof.Machine

/-- Settles O15: by the cases of R104; a recorded seam by the records and rolls it makes, then the NEXT_ROLL test. -/
theorem seamPulseRecordsOrIgnores : Obligations.SeamPulseRecordsOrIgnores := by
  unfold Obligations.SeamPulseRecordsOrIgnores
  rintro s c hrun rfl
  refine ⟨_, exec_seamPulse_running hrun, fun hignored => ?_, fun hseam hline hfar => ⟨fun hfull => ?_, fun hroom => ?_⟩⟩
  · rcases s.seamPulse_cases with ⟨-, h⟩ | ⟨hseam, hline, hfar, -⟩ | ⟨hseam, hline, hfar, -⟩
    · exact h
    all_goals
      rcases hignored with h | h | h
      · exact absurd h hseam
      · exact absurd hline h
      · exact absurd (State.seamTooClose_iff.mpr h) (by rw [hfar]; decide)
  · have hpulse := (State.seamPulse_of_far hseam hline hfar).trans (if_pos hfull)
    rw [hpulse]
    refine ⟨?_, fun n hsees => ?_⟩
    · have hlines := (s.latch .rollTableFull).evalLines_eq
      have hlatch := (WebOnly.latch .rollTableFull s).1
      rw [State.latch_web, State.latch_reports] at hlatch
      generalize (s.latch .rollTableFull).evalLines = t at hlines ⊢
      generalize s.latch .rollTableFull = u at hlines hlatch
      rw [hlines, hlatch]
    · rw [State.port_evalLines]
      exact (State.hasKind_latch _ _ _ _).mpr (.inr ⟨rfl, hsees⟩)
  · have hpulse := (State.seamPulse_of_far hseam hline hfar).trans (if_neg (not_le.mpr hroom))
    have hweb := State.recordSeam_web (s.pos.p + s.line.dSeam) s
    rw [hpulse, State.evalLines_web, State.evalLines_reports]
    generalize s.pos.p + s.line.dSeam = c at *
    have hqueue : (s.recordSeam c).web.queue = s.web.queue.map (Segment.seamed s.web.nextRollId c) := by rw [hweb]; rfl
    refine ⟨?_, ?_, ?_, ?_, ?_, ?_, ?_, fun hnew => ?_, fun hbefore => State.recordSeam_of_none hbefore, ?_⟩
    · have hlines := (s.recordSeam c).evalLines_eq
      have hrecord := (WebOnly.recordSeam c s).1
      generalize (s.recordSeam c).evalLines = t at hlines ⊢
      generalize s.recordSeam c = u at hlines hrecord ⊢
      rw [hlines, hrecord]
    · rw [hweb]; exact hline
    · rw [hweb]; rfl
    · rw [hweb]; rfl
    · rw [hweb]; rfl
    · rw [hweb]; rfl
    · rw [hqueue]
      exact List.map_congr_left fun g _ => g.seamed_eq _ _
    · exact ⟨_, State.recordSeam_getLast? hnew, rfl, rfl, rfl, rfl, rfl⟩
    · intro before former moved lowest highest l hrolls hothers hnew hmoved hlowest hhighest hl
      rcases moved with _ | ⟨m, rest⟩
      · cases hlowest
      · obtain rfl : m.seq = lowest := Option.some.inj hlowest
        have hbooks := Books.recordSeam (c := c) hmoved.symm hrolls hothers
        have hroll : seamRoll s.web.nextRollId c (m :: rest) =
            { id := s.web.nextRollId, seamAt := some c, firstSeq := some m.seq, lastSeq := some highest
              left := (m :: rest).length, tally := Tally.zero, totalLength := 0 } := by
          unfold seamRoll Roll.opened
          rw [hhighest]
          rfl
        rw [hroll] at hbooks
        unfold Roll.lose at hbooks
        rw [← hl] at hbooks
        refine ⟨hbooks.rolls, hbooks.reports, fun n => ?_⟩
        rw [State.port_evalLines]
        dsimp only
        rw [hbooks.latched, hl, Ledger.nextRoll_offered]
        simp [noKind]
end

section
/-! PROOFS. Records of fields: what a run of range checks takes or refuses, the records of SCREEN.TUNE one after another,
and its statement. -/

namespace Sys2Proof.Machine

/-! ### Fields taken one after another (R22, R28) -/

/-- Fields are taken within these ranges, one after another. -/
def takeFields (payload : List Word) : List (Nat × Nat) → List Field → Except Answer (List Field × List Field)
  | [], fs => .ok ([], fs)
  | b :: bounds, fs =>
    takeField payload b.1 b.2 fs >>= fun y => (takeFields payload bounds y.2).map fun z => (y.1 :: z.1, z.2)

section
variable {payload : List Word} {bounds bounds' : List (Nat × Nat)} {fs rest : List Field} {f x : Field} {b : Nat × Nat}

theorem takeField_nil : takeField payload b.1 b.2 [] = .error (tooFew payload) := rfl

theorem takeField_outside (h : f.value < b.1 ∨ b.2 < f.value) : takeField payload b.1 b.2 (f :: fs) = .error (naming f) :=
  if_pos (by simpa using h)

theorem takeField_within (h : b.1 ≤ f.value ∧ f.value ≤ b.2) : takeField payload b.1 b.2 (f :: fs) = .ok (f, fs) :=
  takeField_ok.mpr ⟨rfl, h⟩

theorem takeFields_error (h : takeField payload b.1 b.2 fs = .error a) :
    takeFields payload (b :: bounds) fs = .error a := by
  unfold takeFields
  rw [h]
  rfl

theorem takeFields_cons (h : b.1 ≤ f.value ∧ f.value ≤ b.2) : takeFields payload (b :: bounds) (f :: fs)
    = (takeFields payload bounds fs).map fun y => (f :: y.1, y.2) := by
  rw [takeFields, takeField_within h]
  rfl

theorem allWithin_cons (h : allWithin (b :: bounds) (f :: fs)) : (b.1 ≤ f.value ∧ f.value ≤ b.2) ∧ allWithin bounds fs :=
  ⟨h 0 f b rfl rfl, fun i g c hg hc => h (i + 1) g c hg hc⟩

/-- The first field out of its range is named. -/
theorem takeFields_outside (h : firstOutOfRange bounds fs x) : takeFields payload bounds fs = .error (naming x) := by
  obtain ⟨i, b, hx, hb, hout, hbefore⟩ := h
  induction i generalizing fs bounds with
  | zero =>
    obtain ⟨fs, rfl⟩ := List.head?_eq_some_iff.mp (List.head?_eq_getElem?.trans hx)
    obtain ⟨bounds, rfl⟩ := List.head?_eq_some_iff.mp (List.head?_eq_getElem?.trans hb)
    exact takeFields_error (takeField_outside hout)
  | succ i ih =>
    cases fs with
    | nil => cases hx
    | cons f fs =>
      cases bounds with
      | nil => cases hb
      | cons c bounds =>
        rw [takeFields_cons (hbefore 0 f c rfl rfl),
          ih hx hb fun j g c hg hc => hbefore (j + 1) g c hg hc]
        rfl

/-- A run that ends early is refused at the payload count. -/
theorem takeFields_short (h : allWithin bounds fs) (hlen : fs.length < bounds.length) :
    takeFields payload bounds fs = .error (tooFew payload) := by
  induction bounds generalizing fs with
  | nil => exact absurd hlen (Nat.not_lt_zero _)
  | cons b bounds ih =>
    cases fs with
    | nil => exact takeFields_error rfl
    | cons f fs =>
      obtain ⟨hf, hfs⟩ := allWithin_cons h
      rw [takeFields_cons hf, ih hfs (Nat.lt_of_succ_lt_succ hlen)]
      rfl

/-- A refusal of the run is a refusal of what takes the same fields one by one. -/
theorem bind_error_of_takeFields {α : Type} {a : Answer} {k : Field × List Field → Except Answer α}
    (h : takeFields payload (b :: bounds) fs = .error a)
    (hk : ∀ f rest, fs = f :: rest → takeFields payload bounds rest = .error a → k (f, rest) = .error a) :
    (takeField payload b.1 b.2 fs >>= k) = .error a := by
  unfold takeFields at h
  cases ht : takeField payload b.1 b.2 fs with
  | error e =>
    rw [ht] at h
    exact congrArg _ (Except.error.inj h)
  | ok y =>
    obtain ⟨f, rest⟩ := y
    rw [ht] at h
    refine hk f rest (takeField_ok.mp ht).1 ?_
    change (takeFields payload bounds rest).map _ = _ at h
    cases hrest : takeFields payload bounds rest with
    | error e =>
      rw [hrest] at h
      exact congrArg _ (Except.error.inj h)
    | ok z =>
      rw [hrest] at h
      cases h

/-! ### A tuning record -/

/-- The ranges of a tuning record (R28). -/
def tuningRanges : List (Nat × Nat) := [(2000, 50000), (1, 64), (0, 256), (0, 255), (1, 1000)]

theorem parseTuning_error {a : Answer} (h : takeFields payload tuningRanges fs = .error a) :
    parseTuning payload fs = .error a :=
  bind_error_of_takeFields h fun _ _ _ h => bind_error_of_takeFields h fun _ _ _ h =>
    bind_error_of_takeFields h fun _ _ _ h => bind_error_of_takeFields h fun _ _ _ h =>
      bind_error_of_takeFields h fun _ _ _ h => (nomatch h)

/-- The five fields of a tuning record. -/
abbrev TuningRecord : Type := Field × Field × Field × Field × Field

def TuningRecord.fields : TuningRecord → List Field
  | (l, w, g, d, p) => [l, w, g, d, p]

def TuningRecord.tuning (r : TuningRecord) : Tuning :=
  { lead := r.1.value, slew := r.2.1.value, gain := r.2.2.1.value, deadband := r.2.2.2.1.value,
    stepLimit := r.2.2.2.2.value }

theorem parseTuning_record {r : TuningRecord} (h : allWithin tuningRanges r.fields) :
    parseTuning payload (r.fields ++ rest) = .ok (r.tuning, rest) := by
  obtain ⟨l, w, g, d, p⟩ := r
  obtain ⟨hl, h⟩ := allWithin_cons h
  obtain ⟨hw, h⟩ := allWithin_cons h
  obtain ⟨hg, h⟩ := allWithin_cons h
  obtain ⟨hd, h⟩ := allWithin_cons h
  obtain ⟨hp, -⟩ := allWithin_cons h
  exact parseTuning_ok.mpr ⟨l, w, g, d, p, rfl, ⟨hl, hw, hg, hd, hp⟩, rfl⟩

/-! ### The records of one request (R28) -/

/-- A tuning replaced, and the write index moved on. -/
def tuneStep (uj : State × ScreenId) (r : TuningRecord) : State × ScreenId :=
  (uj.1.modScreen uj.2 fun x => { x with tuning := r.tuning }, uj.2 + 1)

theorem tuneRecords_run {rs : List TuningRecord} {tail : List Field} (h : ∀ r ∈ rs, allWithin tuningRanges r.fields)
    (fuel m : Nat) (uj : State × ScreenId) :
    tuneRecords payload (rs.length + fuel) uj.2 m (rs.flatMap TuningRecord.fields ++ tail) uj.1
      = tuneRecords payload fuel (rs.foldl tuneStep uj).2 (m + rs.length) tail (rs.foldl tuneStep uj).1 := by
  induction rs generalizing uj m with
  | nil => simp
  | cons r rs ih =>
    have hparse : parseTuning payload (r.fields ++ (rs.flatMap TuningRecord.fields ++ tail))
        = .ok (r.tuning, rs.flatMap TuningRecord.fields ++ tail) := parseTuning_record (h r List.mem_cons_self)
    have hne : r.fields ++ (rs.flatMap TuningRecord.fields ++ tail) ≠ [] := by
      obtain ⟨l, w, g, d, p⟩ := r
      exact List.cons_ne_nil _ _
    rw [List.flatMap_cons, List.append_assoc, List.length_cons, Nat.add_right_comm, tuneRecords, if_neg hne, hparse]
    dsimp only
    rw [List.foldl_cons, ← Nat.add_assoc, Nat.add_right_comm m]
    exact ih (fun r hr => h r (List.mem_cons_of_mem _ hr)) (m + 1) (tuneStep uj r)

theorem tuneRecords_end (fuel m : Nat) (j : ScreenId) (s : State) :
    tuneRecords payload fuel j m [] s = (s, recordsAnswer .ok 0 m j) := by
  cases fuel with
  | zero => rfl
  | succ fuel => rw [tuneRecords, if_pos rfl]

theorem tuneRecords_refused {a : Answer} (h : takeFields payload tuningRanges fs = .error a) (hne : fs ≠ [])
    (fuel m : Nat) (j : ScreenId) (s : State) :
    tuneRecords payload (fuel + 1) j m fs s = (s, recordsAnswer a.code a.index m j) := by
  rw [tuneRecords, if_neg hne, parseTuning_error h]

theorem tuneSteps_index (rs : List TuningRecord) (uj : State × ScreenId) :
    ((rs.foldl tuneStep uj).2).val = (uj.2.val + rs.length) % 24 := by
  induction rs generalizing uj with
  | nil => simp [Nat.mod_eq_of_lt uj.2.isLt]
  | cons r rs ih =>
    rw [List.foldl_cons, ih]
    unfold tuneStep
    rw [Fin.val_add, List.length_cons]
    simp only [Fin.val_one]
    omega

/-- Records change tunings, receiving changes a port. -/
theorem receiveFrame_tuneSteps (rs : List TuningRecord) (s : State) (j : ScreenId) (n : PortId) (k tag : Byte)
    (p : List Word) : rs.foldl tuneStep (s.receiveFrame n k tag p, j)
      = ((rs.foldl tuneStep (s, j)).1.receiveFrame n k tag p, (rs.foldl tuneStep (s, j)).2) := by
  induction rs generalizing s j with
  | nil => rfl
  | cons r rs ih =>
    have hstep : tuneStep (s.receiveFrame n k tag p, j) r
        = ((tuneStep (s, j) r).1.receiveFrame n k tag p, (tuneStep (s, j) r).2) := rfl
    rw [List.foldl_cons, List.foldl_cons, hstep]
    exact ih _ _

/-! ### The start index (R21, R28) -/

theorem startIndex_some {j : ScreenId} (h : f.value = j.val) : startIndex (f :: fs) = some (j, fs) := by
  unfold startIndex
  dsimp only
  rw [dif_pos (h ▸ j.isLt)]
  exact congrArg some (Prod.ext (Fin.ext h) rfl)

theorem startIndex_none (h : fs = [] ∨ ∃ f rest, fs = f :: rest ∧ 24 ≤ f.value) : startIndex fs = none := by
  rcases h with rfl | ⟨f, rest, rfl, hf⟩
  · rfl
  · unfold startIndex
    dsimp only
    rw [dif_neg (not_lt.mpr hf)]

end

section
variable {s : State} {n : PortId} {tag : Byte} {payload : List Word} {j : ScreenId} {rs : List TuningRecord}
  {tail : List Field}

theorem takeScreenTune_records {f : Field} (hfields : fields payload = f :: (rs.flatMap TuningRecord.fields ++ tail))
    (hf : f.value = j.val) (hne : rs.flatMap TuningRecord.fields ++ tail ≠ []) (u : State) :
    takeScreenTune n payload u = tuneRecords payload (rs.flatMap TuningRecord.fields ++ tail).length j 0
      (rs.flatMap TuningRecord.fields ++ tail) u := by
  unfold takeScreenTune
  rw [hfields, startIndex_some hf]
  generalize rs.flatMap TuningRecord.fields ++ tail = l at hne
  cases l with
  | nil => exact absurd rfl hne
  | cons g l => rfl

/-- The records before the end, or before a refused one, are applied; the answer counts them. -/
theorem takeScreenTune_answer {f : Field} {code : Status} {index : Nat}
    (hfields : fields payload = f :: (rs.flatMap TuningRecord.fields ++ tail)) (hf : f.value = j.val)
    (hrs : ∀ r ∈ rs, allWithin tuningRanges r.fields)
    (htail : (tail = [] ∧ rs ≠ [] ∧ code = .ok ∧ index = 0) ∨ (tail = [] ∧ rs = [] ∧ code = .range ∧ index = payload.length)
      ∨ (tail ≠ [] ∧ ∃ a, takeFields payload tuningRanges tail = .error a ∧ code = a.code ∧ index = a.index)) (u : State) :
    takeScreenTune n payload u = ((rs.foldl tuneStep (u, j)).1,
      { code := code, index := index, words := words1 rs.length ++ words1 ((j.val + rs.length) % 24 : Nat) }) := by
  have hlength : rs.length ≤ (rs.flatMap TuningRecord.fields).length := by
    rw [List.length_flatMap]
    have hone : ∀ r ∈ rs, 1 ≤ r.fields.length := fun r _ => by
      obtain ⟨l, w, g, d, p⟩ := r
      exact Nat.le_add_left 1 4
    calc rs.length = (rs.map fun _ => 1).sum := by simp
      _ ≤ (rs.map fun r => r.fields.length).sum := List.sum_le_sum hone
  have hindex := tuneSteps_index rs (u, j)
  have hrun := fun fuel => tuneRecords_run (payload := payload) (tail := tail) hrs fuel 0 (u, j)
  rw [Nat.zero_add] at hrun
  have hanswer : ∀ (c : Status) (i : Nat), recordsAnswer c i rs.length (rs.foldl tuneStep (u, j)).2
      = { code := c, index := i, words := words1 rs.length ++ words1 ((j.val + rs.length) % 24 : Nat) } := fun c i => by
    unfold recordsAnswer
    rw [hindex]
  rcases htail with ⟨rfl, hne, rfl, rfl⟩ | ⟨rfl, rfl, rfl, rfl⟩ | ⟨hne, a, ha, rfl, rfl⟩
  · have hnil : rs.flatMap TuningRecord.fields ++ [] ≠ [] := by
      obtain ⟨r, rest, rfl⟩ := List.exists_cons_of_ne_nil hne
      obtain ⟨l, w, g, d, p⟩ := r
      exact List.cons_ne_nil _ _
    obtain ⟨fuel, hfuel⟩ := Nat.exists_eq_add_of_le hlength
    rw [takeScreenTune_records hfields hf hnil, List.append_nil, hfuel]
    have hrun := hrun fuel
    rw [List.append_nil] at hrun
    rw [hrun, tuneRecords_end, hanswer]
  · unfold takeScreenTune
    rw [hfields, startIndex_some hf]
    have hmod : (j.val + ([] : List TuningRecord).length) % 24 = j.val := Nat.mod_eq_of_lt j.isLt
    rw [hmod]
    rfl
  · have hnil : rs.flatMap TuningRecord.fields ++ tail ≠ [] := List.append_ne_nil_of_right_ne_nil _ hne
    have hone : 1 ≤ tail.length := List.length_pos_iff_ne_nil.mpr hne
    obtain ⟨fuel, hfuel⟩ : ∃ fuel, (rs.flatMap TuningRecord.fields ++ tail).length = rs.length + (fuel + 1) :=
      ⟨(rs.flatMap TuningRecord.fields).length - rs.length + (tail.length - 1), by rw [List.length_append]; omega⟩
    rw [takeScreenTune_records hfields hf hnil, hfuel, hrun, tuneRecords_refused ha hne, hanswer]

theorem exec_screenTune {f : Field} {code : Status} {index : Nat} (hears : s.hears n .line payload)
    (hfields : fields payload = f :: (rs.flatMap TuningRecord.fields ++ tail)) (hf : f.value = j.val)
    (hrs : ∀ r ∈ rs, allWithin tuningRanges r.fields)
    (htail : (tail = [] ∧ rs ≠ [] ∧ code = .ok ∧ index = 0) ∨ (tail = [] ∧ rs = [] ∧ code = .range ∧ index = payload.length)
      ∨ (tail ≠ [] ∧ ∃ a, takeFields payload tuningRanges tail = .error a ∧ code = a.code ∧ index = a.index)) :
    exec (.screenTune n tag payload) s = .next ((rs.foldl tuneStep (s, j)).1.answered n 0x21 tag payload code index
      (words1 rs.length ++ words1 ((j.val + rs.length) % 24 : Nat))) := by
  obtain ⟨hrun, hrole, hlen⟩ := hears
  refine exec_changed (k := .screenTune) (t := (rs.foldl tuneStep (s, j)).1)
    (a := { code := code, index := index, words := words1 rs.length ++ words1 ((j.val + rs.length) % 24 : Nat) })
    ⟨hrun, hlen⟩ (by rw [hrole]; rfl) ?_
  have htake := takeScreenTune_answer (n := n) hfields hf hrs htail (s.receiveFrame n 0x21 tag payload)
  rw [receiveFrame_tuneSteps] at htake
  exact htake

/-- Nothing is applied for a bad start index (assumption logs 11 and 34). -/
theorem exec_badStart {k : Kind} (hears : s.hears n .line payload) (hpermits : permits k .line = true)
    (htake : ∀ u, taker k n payload u = badStart u) :
    exec (k.command n tag payload) s = .next ((s.withFreeIndex (s.freeIndex + 1)).answered n k.code tag payload .range 0
      (words1 0 ++ [Config.freeWord s.freeIndex])) := by
  obtain ⟨hrun, hrole, hlen⟩ := hears
  refine exec_changed (t := s.withFreeIndex (s.freeIndex + 1))
    (a := { code := .range, index := 0, words := words1 0 ++ [Config.freeWord s.freeIndex] })
    ⟨hrun, hlen⟩ (by rw [hrole, hpermits]) ?_
  rw [htake]
  rfl

end
end Sys2Proof.Machine

/-! ### The statements -/

open Sys2Proof Sys2Proof.Machine

/-- Settles O33: the records that pass are applied one after another; what follows them is the end or is refused. -/
theorem screenTuneReplacesTunings : Obligations.ScreenTuneReplacesTunings := by
  unfold Obligations.ScreenTuneReplacesTunings
  refine ⟨?_, fun s n tag payload hears hbad => ⟨_, exec_badStart (k := .screenTune) hears rfl fun u => ?_⟩⟩
  · rintro s n tag payload f j rs tail _ code index hears hf hfields rfl hrs htail
    have hfields' : fields payload = f :: (rs.flatMap TuningRecord.fields ++ tail) := hfields
    have hexec := exec_screenTune (tag := tag) (code := code) (index := index) hears hfields' hf hrs ?_
    · rw [hexec]
      push_cast
      rfl
    · rcases htail with h | h | ⟨hne, hlen, hwithin, hcode, hindex⟩ | ⟨x, hx, hcode, hindex⟩
      · exact .inl h
      · exact .inr (.inl h)
      · exact .inr (.inr ⟨hne, _, takeFields_short hwithin hlen, hcode, hindex⟩)
      · refine .inr (.inr ⟨?_, _, takeFields_outside hx, hcode, hindex⟩)
        rintro rfl
        obtain ⟨i, b, hi, -⟩ := hx
        cases hi
  · change takeScreenTune n payload u = badStart u
    unfold takeScreenTune
    rw [startIndex_none hbad]
end

section
/-! PROOFS. The refusals of SCREEN.PUT: its fields, its start index, and the checks of R23 to R25 on a whole record. -/

namespace Sys2Proof.Machine

section
variable {payload : List Word} {fs rest exts : List Field} {head pres kind dist lim : Field} {ext : Bool} {s : State}
  {a : Answer}

/-! ### The fields of a structural record (R22) -/

/-- The ranges of a structural record; with head 1 its extension follows. -/
def recordRanges (fs : List Field) : List (Nat × Nat) :=
  [(0, 1), (0, 1), (0, 1), (0, 2000000), (0, 3000)] ++ if fs.head?.map Field.value = some 1 then [(0, 1)] else []

theorem parseRecord_error (h : takeFields payload (recordRanges fs) fs = .error a) :
    parseRecord payload s fs = .error a := by
  unfold recordRanges at h
  unfold parseRecord
  simp only [List.cons_append, List.nil_append] at h
  refine bind_error_of_takeFields h fun head _ hfs h => bind_error_of_takeFields h fun _ _ _ h =>
    bind_error_of_takeFields h fun _ _ _ h => bind_error_of_takeFields h fun dist _ _ h =>
      bind_error_of_takeFields h fun _ rest _ h => ?_
  rw [hfs] at h
  by_cases hhead : head.value = 1
  · rw [List.head?_cons, Option.map_some, if_pos (congrArg some hhead)] at h
    dsimp only
    rw [if_pos hhead]
    unfold takeFields at h
    cases ht : takeField payload 0 1 rest with
    | error e =>
      rw [ht] at h
      exact congrArg _ (Except.error.inj h)
    | ok y =>
      rw [ht] at h
      cases h
  · rw [List.head?_cons, Option.map_some, if_neg fun hc => hhead (Option.some.inj hc)] at h
    cases h

/-- A whole record in its ranges is refused where check 6 of R22 finds its distance beyond the camera. -/
theorem parseRecord_beyond (hpres : pres.value = 1) (hkind : kind.value ≤ 1) (hdist : dist.value ≤ 2000000)
    (hlim : lim.value ≤ 3000)
    (hexts : (head.value = 0 ∧ exts = []) ∨ (head.value = 1 ∧ ∃ e : Field, exts = [e] ∧ e.value ≤ 1))
    (hline : s.web.lineState ≠ .setup) (hbeyond : s.line.xInsp ≤ dist.value) :
    parseRecord payload s (head :: pres :: kind :: dist :: lim :: (exts ++ rest)) = .error (naming dist) := by
  have hhead : head.value ≤ 1 := by rcases hexts with ⟨h, -⟩ | ⟨h, -⟩ <;> omega
  unfold parseRecord
  rw [takeField_ok.mpr ⟨rfl, Nat.zero_le _, hhead⟩]
  dsimp only [bind, Except.bind]
  rw [takeField_ok.mpr ⟨rfl, Nat.zero_le _, hpres.le⟩]
  dsimp only
  rw [takeField_ok.mpr ⟨rfl, Nat.zero_le _, hkind⟩]
  dsimp only
  rw [takeField_ok.mpr ⟨rfl, Nat.zero_le _, hdist⟩]
  dsimp only
  rw [takeField_ok.mpr ⟨rfl, Nat.zero_le _, hlim⟩]
  dsimp only
  rcases hexts with ⟨h0, rfl⟩ | ⟨h1, e, rfl, he⟩
  · rw [if_neg (by omega)]
    exact if_pos ⟨hline, hpres, hbeyond⟩
  · rw [if_pos h1, List.singleton_append, takeField_ok.mpr ⟨rfl, Nat.zero_le _, he⟩]
    exact if_pos ⟨hline, hpres, hbeyond⟩

end

/-! ### The checks of a whole record (R23 to R25) -/

section
variable {s : State} {j : ScreenId} {r : StructRecord} {t : Vector Screen 24}

theorem keyScreenRefusal_relative (hj : j = 0) (hpres : r.present = true) (hkind : r.kind = .relative) :
    keyScreenRefusal t j r = some (refuse .range r.kindIndex) := by
  unfold keyScreenRefusal
  rw [if_pos hj, if_pos hpres, if_pos hkind]

theorem keyScreenRefusal_dist (hj : j = 0) (hpres : r.present = true) (hkind : r.kind = .anchor) (hdist : r.dist ≠ 0) :
    keyScreenRefusal t j r = some (refuse .range r.distIndex) := by
  unfold keyScreenRefusal
  rw [if_pos hj, if_pos hpres, if_neg (by rw [hkind]; decide), if_pos hdist]

theorem keyScreenRefusal_removed (hj : j = 0) (hpres : r.present = false)
    (hothers : ∃ k : ScreenId, k ≠ 0 ∧ t[k].present = true) :
    keyScreenRefusal t j r = some (refuse .state r.headIndex) := by
  unfold keyScreenRefusal
  rw [if_pos hj, if_neg (by rw [hpres]; decide), if_pos (by simpa [mem_allScreens] using hothers)]

theorem keyScreenRefusal_missing (hj : j ≠ 0) (hpres : r.present = true) (hkey : t[(0 : ScreenId)].present = false) :
    keyScreenRefusal t j r = some (refuse .state r.headIndex) := by
  unfold keyScreenRefusal
  rw [if_neg hj, if_pos ⟨hpres, hkey⟩]

/-- The key-screen law (R23). -/
theorem keyScreenRefusal_eq_none (h1 : j = 0 → r.present = true → r.kind = .anchor ∧ r.dist = 0)
    (h2 : j = 0 → r.present = false → ∀ k : ScreenId, k ≠ 0 → t[k].present = false)
    (h3 : j ≠ 0 → r.present = true → t[(0 : ScreenId)].present = true) : keyScreenRefusal t j r = none := by
  unfold keyScreenRefusal
  by_cases hj : j = 0
  · rw [if_pos hj]
    by_cases hp : r.present = true
    · obtain ⟨hkind, hdist⟩ := h1 hj hp
      rw [if_pos hp, if_neg (by rw [hkind]; decide), if_neg (not_not.mpr hdist)]
    · rw [if_neg hp]
      refine if_neg ?_
      simpa [mem_allScreens] using h2 hj (Bool.not_eq_true _ ▸ hp)
  · rw [if_neg hj]
    refine if_neg fun h => ?_
    rw [h3 hj h.1] at h
    cases h.2

theorem State.groupBusy_iff : s.groupBusy j r = true ↔ ∃ m, s.tests j m (tableAfter s.screens j r)
    ∧ s.engState m ≠ .absent ∧ s.engState m ≠ .parked ∧ s.engState m ≠ .faulted := by
  unfold State.groupBusy
  simp only [List.any_eq_true, mem_testedScreens, Bool.not_eq_true', ← Bool.not_eq_true, EngState.inactive_iff, not_or,
    ne_eq]

theorem State.runRefuses_iff : s.runRefuses j r = true ↔ (s.web.lineState ≠ .setup ∧ j = 0)
    ∨ (s.web.lineState = .run ∧ ∃ m, inSet s.planned m = true ∧ (anchorOf (tableAfter s.screens j r) m = none
      ∨ anchorOf (tableAfter s.screens j r) m ≠ anchorOf s.screens m)) := by
  unfold State.runRefuses
  simp [mem_allScreens]

theorem recordRefusal_key {a : Answer} (h : keyScreenRefusal s.screens j r = some a) : recordRefusal s j r = some a := by
  unfold recordRefusal
  rw [h]

theorem recordRefusal_busy (hkey : keyScreenRefusal s.screens j r = none)
    (h : s.groupBusy j r = true ∨ s.runRefuses j r = true) :
    recordRefusal s j r = some (refuse .state r.headIndex) := by
  unfold recordRefusal
  rw [hkey]
  exact if_pos (by simpa using h)

theorem recordRefusal_eq_none (hkey : keyScreenRefusal s.screens j r = none) (hbusy : s.groupBusy j r = false)
    (hruns : s.runRefuses j r = false) : recordRefusal s j r = none := by
  unfold recordRefusal
  rw [hkey]
  rw [hbusy, hruns]
  rfl

/-- Two tables give every screen the same group. -/
def SameGroups (t t' : Vector Screen 24) : Prop :=
  ∀ k : ScreenId, t'[k].present = t[k].present ∧ t'[k].kind = t[k].kind

/-- What a record tests rests on presence and kind alone. -/
theorem State.tests_congr {m : ScreenId} {after after' : Vector Screen 24} (h : SameGroups after after') :
    s.tests j m after' ↔ s.tests j m after := by
  unfold State.tests
  rw [(h j).1, (h j).2, anchorOf_congr h j, anchorOf_congr h m]

theorem State.regrouped_sameGroups (s : State) (j : ScreenId) (r : StructRecord) :
    SameGroups (s.regrouped j r.present r.kind) (tableAfter s.screens j r) := by
  intro k
  rw [tableAfter_get]
  unfold State.regrouped
  by_cases h : k = j
  · subst h; simp [Screen.restructure]
  · have hne : j.val ≠ k.val := fun e => h (Fin.ext e.symm)
    rw [if_neg h]
    simp [Vector.getElem_set_ne _ _ hne]

end

/-! ### The request -/

section
variable {s : State} {n : PortId} {tag : Byte} {payload : List Word} {j : ScreenId} {f : Field} {record : List Field}

theorem takeScreenPut_records (hfields : fields payload = f :: record) (hf : f.value = j.val) (hne : record ≠ [])
    (u : State) : takeScreenPut n payload u = putRecords payload record.length j 0 record u := by
  unfold takeScreenPut
  rw [hfields, startIndex_some hf]
  cases record with
  | nil => exact absurd rfl hne
  | cons g record => rfl

theorem exec_screenPut_answered {a : Answer} (hears : s.hears n .line payload)
    (htake : takeScreenPut n payload (s.receiveFrame n 0x20 tag payload) = (s.receiveFrame n 0x20 tag payload, a)) :
    exec (.screenPut n tag payload) s = .next (s.answered n 0x20 tag payload a.code a.index a.words) := by
  obtain ⟨hrun, hrole, hlen⟩ := hears
  exact exec_unchanged (k := .screenPut) ⟨hrun, hlen⟩ (by rw [hrole]; rfl) htake

/-- What refuses the first record of a request, if anything: its fields, or the checks of R23 to R25. -/
def RecordRefused (s : State) (payload : List Word) (j : ScreenId) (record : List Field) (a : Answer) : Prop :=
  parseRecord payload s record = .error a
    ∨ ∃ (r : StructRecord) (rest : List Field), parseRecord payload s record = .ok (r, rest) ∧ recordRefusal s j r = some a

theorem putRecords_refused {a : Answer} (hne : record ≠ []) (h : RecordRefused s payload j record a) (fuel m : Nat) :
    putRecords payload (fuel + 1) j m record s = (s, recordsAnswer a.code a.index m j) := by
  rw [putRecords, if_neg hne]
  rcases h with h | ⟨r, rest, h, hrefused⟩
  · rw [h]
  · rw [h]
    dsimp only
    rw [hrefused]

theorem RecordRefused.receiveFrame {a : Answer} {kind : Byte} (h : RecordRefused s payload j record a) :
    RecordRefused (s.receiveFrame n kind tag payload) payload j record a := h

theorem exec_screenPut_refused {a : Answer} (hears : s.hears n .line payload) (hfields : fields payload = f :: record)
    (hf : f.value = j.val) (hne : record ≠ []) (h : RecordRefused s payload j record a) :
    exec (.screenPut n tag payload) s
      = .next (s.answered n 0x20 tag payload a.code a.index (words1 0 ++ words1 j.val)) := by
  obtain ⟨g, record, rfl⟩ := List.exists_cons_of_ne_nil hne
  refine exec_screenPut_answered hears (a := recordsAnswer a.code a.index 0 j) ?_
  rw [takeScreenPut_records hfields hf hne]
  exact putRecords_refused hne h.receiveFrame _ _

/-- A request without a record is refused at the payload count. -/
theorem exec_screenPut_noRecord (hears : s.hears n .line payload) (hfields : fields payload = [f]) (hf : f.value = j.val) :
    exec (.screenPut n tag payload) s
      = .next (s.answered n 0x20 tag payload .range payload.length (words1 0 ++ words1 j.val)) := by
  refine exec_screenPut_answered hears (a := recordsAnswer .range payload.length 0 j) ?_
  unfold takeScreenPut
  rw [hfields, startIndex_some hf]

/-- The refusals of the fields, as of the first record (R21, R22). -/
theorem screenPut_refusesFields (hears : s.hears n .line payload) (hfields : fields payload = f :: record)
    (hf : f.value = j.val) {refused : Status → Nat → Prop}
    (hrefused : ∀ c i, refused c i ↔ exec (.screenPut n tag payload) s = .next
      (s.answered n 0x20 tag payload c i (words1 0 ++ words1 j.val))) :
    (record = [] → refused .range payload.length)
    ∧ (∀ x, firstOutOfRange (recordRanges record) record x → refused .range x.index)
    ∧ (allWithin (recordRanges record) record → record.length < (recordRanges record).length →
        refused .range payload.length) := by
  have hnone : record = [] → refused .range payload.length := by
    rintro rfl
    exact (hrefused _ _).mpr (exec_screenPut_noRecord hears hfields hf)
  have hparse : ∀ {a : Answer}, record ≠ [] → takeFields payload (recordRanges record) record = .error a →
      refused a.code a.index := fun hne h =>
    (hrefused _ _).mpr (exec_screenPut_refused hears hfields hf hne (.inl (parseRecord_error h)))
  refine ⟨hnone, fun x hx => ?_, fun hwithin hshort => ?_⟩
  · have hne : record ≠ [] := by
      rintro rfl
      obtain ⟨i, b, hi, -⟩ := hx
      cases hi
    exact hparse hne (takeFields_outside hx)
  · by_cases hne : record = []
    · exact hnone hne
    · exact hparse hne (takeFields_short hwithin hshort)

/-- The refusals of a whole record (check 6 of R22, and R23 to R25). -/
theorem screenPut_refusesRecord {head pres kind dist lim : Field} {exts more : List Field}
    {refused : Status → Nat → Prop} (hears : s.hears n .line payload)
    (hfields : fields payload = f :: head :: pres :: kind :: dist :: lim :: (exts ++ more)) (hf : f.value = j.val)
    (hpres : pres.value ≤ 1) (hkind : kind.value ≤ 1) (hdist : dist.value ≤ 2000000) (hlim : lim.value ≤ 3000)
    (hexts : (head.value = 0 ∧ exts = []) ∨ (head.value = 1 ∧ ∃ e : Field, exts = [e] ∧ e.value ≤ 1))
    (hrefused : ∀ c i, refused c i ↔ exec (.screenPut n tag payload) s = .next
      (s.answered n 0x20 tag payload c i (words1 0 ++ words1 j.val))) :
    (s.web.lineState ≠ .setup → pres.value = 1 → s.line.xInsp ≤ dist.value → refused .range dist.index)
    ∧ ((s.web.lineState ≠ .setup → pres.value = 1 → (dist.value : Int) < s.line.xInsp) →
      ∃ ext, ∀ a, recordRefusal s j (recordOf head pres kind dist lim ext) = some a → refused a.code a.index) := by
  have hexec : ∀ {a : Answer}, RecordRefused s payload j (head :: pres :: kind :: dist :: lim :: (exts ++ more)) a →
      refused a.code a.index := fun h =>
    (hrefused _ _).mpr (exec_screenPut_refused hears hfields hf (List.cons_ne_nil _ _) h)
  refine ⟨fun hline hpres hbeyond => ?_, fun hinside => ?_⟩
  · exact hexec (.inl (parseRecord_beyond hpres hkind hdist hlim hexts hline hbeyond))
  · obtain ⟨ext, hext⟩ : ∃ ext : Bool, (head.value = 0 ∧ exts = [] ∧ ext = false)
        ∨ (head.value = 1 ∧ ∃ e : Field, exts = [e] ∧ e.value ≤ 1 ∧ ext = decide (e.value = 1)) := by
      rcases hexts with ⟨h0, h⟩ | ⟨h1, e, h, he⟩
      · exact ⟨false, .inl ⟨h0, h, rfl⟩⟩
      · exact ⟨_, .inr ⟨h1, e, h, he, rfl⟩⟩
    refine ⟨ext, fun a ha => hexec (.inr ⟨_, more, parseRecord_ok.mpr ⟨head, pres, kind, dist, lim, exts, ext, rfl,
      ⟨hpres, hkind, hdist, hlim, hext, fun ⟨h1, h2, h3⟩ => ?_⟩, rfl⟩, ha⟩)⟩
    exact absurd (hinside h1 h2) (not_lt.mpr h3)

end
end Sys2Proof.Machine
end

section
/-! PROOFS. What SCREEN.PUT with one record that passes its checks leaves (R26), and its statement. -/

namespace Sys2Proof.Machine

/-! ### Groups before and after a record (R24) -/

section
variable {t before after : Vector Screen 24} {j k : ScreenId} {r : StructRecord}

/-- A present anchor names its own group. -/
theorem anchorOf_self (h : isAnchor t[k] = true) : anchorOf t k = some k := by
  obtain ⟨hpresent, hkind⟩ := (isAnchor_iff _).mp h
  unfold anchorOf
  rw [if_pos hpresent]
  generalize hl : allScreens.filter _ = l
  have hmem : ∀ a, a ∈ l ↔ a ≤ k ∧ t[a].present = true ∧ t[a].kind = .anchor := fun a => by
    simp [← hl, mem_allScreens, and_assoc]
  have hk : k ∈ l := (hmem k).mpr ⟨le_refl k, hpresent, hkind⟩
  have hsorted : l.Pairwise (· ≤ ·) := by
    rw [← hl]
    exact (List.sortedLT_finRange 24).sortedLE.pairwise.filter _
  have hlast := List.getLast_mem (List.ne_nil_of_mem hk)
  rw [List.getLast?_eq_some_getLast (List.ne_nil_of_mem hk)]
  exact congrArg some (le_antisymm ((hmem _).mp hlast).1 (hsorted.rel_getLast hk))

theorem membersOf_eq_iff : membersOf before k = membersOf after k
    ↔ ∀ m, anchorOf after m = some k ↔ anchorOf before m = some k := by
  refine ⟨fun h m => ?_, fun h => ?_⟩
  · rw [← mem_membersOf, ← mem_membersOf, h]
  · refine List.filter_congr fun m _ => ?_
    rw [Bool.eq_iff_iff, beq_iff_eq, beq_iff_eq, h m]

theorem touches_eq_false : touches before after j k = false ↔ anchorOf before j ≠ some k ∧ anchorOf after j ≠ some k
    ∧ ∀ m, m ≠ j → (anchorOf after m = some k ↔ anchorOf before m = some k) := by
  unfold touches
  simp only [Bool.or_eq_false_iff, beq_eq_false_iff_ne, bne_eq_false_iff_eq, membersOf_eq_iff, and_assoc]
  refine and_congr_right fun hb => and_congr_right fun ha => ⟨fun h m _ => h m, fun h m => ?_⟩
  by_cases hm : m = j
  · rw [hm]
    exact iff_of_false ha hb
  · exact h m hm

end

/-! ### What an accepted record leaves -/

section
variable {s : State} {j k : ScreenId} {r : StructRecord}

theorem State.screen_putRecord_same : (s.putRecord j r).screen j = { (s.screen j).rewritten j r with aligned := false } := by
  have htouches : (touches s.screens (tableAfter s.screens j r) j j || !isAnchor (tableAfter s.screens j r)[j]) = true := by
    cases h : isAnchor (tableAfter s.screens j r)[j] with
    | false => rw [Bool.not_false, Bool.or_true]
    | true =>
      unfold touches
      rw [anchorOf_self h, beq_self_eq_true, Bool.or_true, Bool.true_or, Bool.true_or]
  rw [State.screen_putRecord, if_pos rfl, if_pos htouches]

theorem State.screen_putRecord_ne (hk : k ≠ j) :
    (s.putRecord j r).screen k = { s.screen k with aligned := ((s.putRecord j r).screen k).aligned } := by
  rw [State.screen_putRecord, if_neg hk]

theorem State.aligned_putRecord_ne (hk : k ≠ j) : ((s.putRecord j r).screen k).aligned = true
    ↔ (s.screen k).aligned = true ∧ (s.screen k).present = true ∧ (s.screen k).kind = .anchor
      ∧ anchorOf s.screens j ≠ some k ∧ anchorOf (tableAfter s.screens j r) j ≠ some k
      ∧ ∀ m, m ≠ j → (anchorOf (tableAfter s.screens j r) m = some k ↔ anchorOf s.screens m = some k) := by
  rw [← touches_eq_false, State.screen_putRecord, if_neg hk, tableAfter_get, if_neg hk]
  have hanchor : isAnchor s.screens[k] = true ↔ (s.screen k).present = true ∧ (s.screen k).kind = .anchor := isAnchor_iff _
  rw [← and_assoc (a := (s.screen k).present = true), ← hanchor]
  dsimp only
  cases touches s.screens (tableAfter s.screens j r) j k <;> cases isAnchor s.screens[k] <;> simp

theorem State.present_putRecord : ((s.putRecord j r).screen k).present = (tableAfter s.screens j r)[k].present := by
  rw [State.screen_putRecord, tableAfter_get]
  dsimp only
  split
  · rename_i h
    rw [h]
    rfl
  · rfl

theorem State.ringState_putRecord :
    ((∃ k, ((s.putRecord j r).screen k).present = true) →
      (s.putRecord j r).ring.state = if s.ring.state = .down then .up else s.ring.state)
    ∧ ((∀ k, ((s.putRecord j r).screen k).present = false) → (s.putRecord j r).ring.state = .down) := by
  have hstate : (s.putRecord j r).ring.state = ringAfterWrite s.ring.state (tableAfter s.screens j r) := by
    rw [State.putRecord_frame]
  rw [hstate]
  unfold ringAfterWrite
  constructor
  · rintro ⟨k, hk⟩
    rw [State.present_putRecord] at hk
    exact if_pos (List.any_eq_true.mpr ⟨k, mem_allScreens k, hk⟩)
  · intro h
    refine if_neg fun hany => ?_
    obtain ⟨k, -, hk⟩ := List.any_eq_true.mp hany
    rw [← State.present_putRecord, h k] at hk
    cases hk

theorem State.port_putRecord (m : PortId) : ∃ line, (s.putRecord j r).port m = { s.port m with line := line } := by
  have hevaluated : ∀ u : State, u.port m = s.port m → ∃ line, u.evalHold.evalLines.port m = { s.port m with line := line } :=
    fun u hu => ⟨u.evalHold.lineCondition m, by rw [State.port_evalLines, State.port_evalHold, hu]⟩
  refine hevaluated _ ?_
  split
  · rw [State.port_withPhase, State.port_withRing, State.port_mapScreens]
  · rw [State.port_withRing, State.port_mapScreens]

theorem State.putRecord_holdFollows : (s.putRecord j r).HoldFollows :=
  State.evalLines_holdFollows (State.evalHold_follow _)

end

/-! ### One record -/

section
variable {s : State} {n : PortId} {tag : Byte} {payload : List Word} {j : ScreenId} {r : StructRecord} {fs rest : List Field}

/-- What the request leaves after one record that passes. -/
def State.putOne (s : State) (n : PortId) (tag : Byte) (payload : List Word) (j : ScreenId) (r : StructRecord) : State :=
  ((s.receiveFrame n 0x20 tag payload).putRecord j r).holdReply n 0x20 tag (recordsAnswer .ok 0 1 (j + 1))

theorem putRecords_accepted (hne : fs ≠ []) (hparse : parseRecord payload s fs = .ok (r, rest))
    (hpass : recordRefusal s j r = none) (fuel m : Nat) :
    putRecords payload (fuel + 1) j m fs s = putRecords payload fuel (j + 1) (m + 1) rest (s.putRecord j r) := by
  rw [putRecords, if_neg hne, hparse]
  dsimp only
  rw [hpass]

theorem putRecords_end (fuel m : Nat) : putRecords payload fuel j m [] s = (s, recordsAnswer .ok 0 m j) := by
  cases fuel with
  | zero => rfl
  | succ fuel => rw [putRecords, if_pos rfl]

theorem exec_screenPut (hears : s.hears n .line payload) : exec (.screenPut n tag payload) s =
    .next ((takeScreenPut n payload (s.receiveFrame n 0x20 tag payload)).1.holdReply n 0x20 tag
      (takeScreenPut n payload (s.receiveFrame n 0x20 tag payload)).2) := by
  obtain ⟨hrun, hrole, hlen⟩ := hears
  exact (exec_command .screenPut n tag payload s).trans
    (congrArg _ (requestFrame_taken ⟨hrun, hlen⟩ (by rw [hrole]; rfl)))

theorem exec_screenPut_one {f : Field} (hears : s.hears n .line payload) (hfields : fields payload = f :: fs)
    (hf : f.value = j.val) (hne : fs ≠ []) (hparse : parseRecord payload s fs = .ok (r, []))
    (hpass : recordRefusal s j r = none) :
    exec (.screenPut n tag payload) s = .next (s.putOne n tag payload j r) := by
  obtain ⟨g, fs, rfl⟩ := List.exists_cons_of_ne_nil hne
  have htake : takeScreenPut n payload (s.receiveFrame n 0x20 tag payload)
      = ((s.receiveFrame n 0x20 tag payload).putRecord j r, recordsAnswer .ok 0 1 (j + 1)) := by
    rw [takeScreenPut_records hfields hf hne, List.length_cons,
      putRecords_accepted (s := s.receiveFrame n 0x20 tag payload) hne hparse hpass, putRecords_end]
  rw [exec_screenPut hears, htake]
  rfl

theorem State.screen_putOne (k : ScreenId) : (s.putOne n tag payload j r).screen k = (s.putRecord j r).screen k := by
  unfold State.putOne
  rw [State.screen_holdReply, State.screen_putRecord, State.screen_putRecord]
  rfl

theorem State.putOne_frame : s.putOne n tag payload j r = { s with
    screens := (s.putOne n tag payload j r).screens
    phase := { s.phase with highWater := if j = 0 then 0 else s.phase.highWater }
    ring := { s.ring with
      state := (s.putRecord j r).ring.state, hold := (s.putOne n tag payload j r).ring.hold }
    ports := (s.putOne n tag payload j r).ports } := by
  unfold State.putOne
  rw [(congrArg (fun x : State => x.ring.state) (s.putRecord_frame j r) : (s.putRecord j r).ring.state = _),
    State.putRecord_frame]
  rfl

theorem State.port_putOne_held : ((s.putOne n tag payload j r).port n).held
    = { kind := 0x20, tag := tag, status := .ok, index := 0,
        words := words1 1 ++ words1 (if j = 23 then 0 else j.val + 1) } := by
  have hnext : ((j + 1 : ScreenId).val : Int) = if j = 23 then 0 else (j.val : Int) + 1 := by
    revert j
    decide
  unfold State.putOne
  rw [State.port_holdReply, if_pos rfl]
  unfold recordsAnswer
  rw [hnext]
  rfl

theorem State.port_putOne_ne {m : PortId} (hm : m ≠ n) :
    ((s.putOne n tag payload j r).port m).sameSerial (s.port m) := by
  unfold State.putOne
  obtain ⟨line, hline⟩ := (s.receiveFrame n 0x20 tag payload).port_putRecord (j := j) (r := r) m
  rw [State.port_holdReply, if_neg hm, hline, State.port_receiveFrame, if_neg hm]
  exact ⟨rfl, rfl, rfl, rfl, rfl, rfl, rfl, rfl, rfl, rfl, rfl⟩

theorem State.port_putOne_sets (m : PortId) : ((s.putOne n tag payload j r).port m).latched = (s.port m).latched
    ∧ ((s.putOne n tag payload j r).port m).enabled = (s.port m).enabled := by
  unfold State.putOne
  obtain ⟨line, hline⟩ := (s.receiveFrame n 0x20 tag payload).port_putRecord (j := j) (r := r) m
  rw [State.latched_holdReply, State.enabled_holdReply, hline]
  exact ⟨State.latched_receiveFrame .., State.enabled_receiveFrame ..⟩

/-- What one accepted record leaves (R26, R77, R84). -/
theorem State.putOne_spec :
    s.putOne n tag payload j r = { s with
      screens := (s.putOne n tag payload j r).screens, ring := (s.putOne n tag payload j r).ring
      phase := (s.putOne n tag payload j r).phase, ports := (s.putOne n tag payload j r).ports }
    ∧ (s.putOne n tag payload j r).phase = { s.phase with highWater := if j = 0 then 0 else s.phase.highWater }
    ∧ (s.putOne n tag payload j r).ring = { s.ring with
        state := (s.putOne n tag payload j r).ring.state, hold := (s.putOne n tag payload j r).ring.hold }
    ∧ ((∃ k, ((s.putOne n tag payload j r).screen k).present = true) →
        (s.putOne n tag payload j r).ring.state = if s.ring.state = .down then .up else s.ring.state)
    ∧ ((∀ k, ((s.putOne n tag payload j r).screen k).present = false) →
        (s.putOne n tag payload j r).ring.state = .down)
    ∧ (s.putOne n tag payload j r).HoldFollows := by
  have hring : (s.putOne n tag payload j r).ring.state = (s.putRecord j r).ring.state := by rw [State.putOne_frame]
  have hframe := s.putOne_frame (n := n) (tag := tag) (payload := payload) (j := j) (r := r)
  obtain ⟨hup, hdown⟩ := s.ringState_putRecord (j := j) (r := r)
  rw [hring]
  simp only [State.screen_putOne]
  refine ⟨?_, ?_, ?_, hup, hdown, State.holdReply_holdFollows State.putRecord_holdFollows⟩
  · generalize s.putOne n tag payload j r = t at hframe ⊢
    rw [hframe]
  · generalize s.putOne n tag payload j r = t at hframe ⊢
    rw [hframe]
  · generalize s.putOne n tag payload j r = t at hframe ⊢
    rw [hframe]

/-- What a record leaves of its own screen (R26). -/
theorem Screen.rewritten_unaligned (x : Screen) : { x.rewritten j r with aligned := false } = { x with
    present := r.present, kind := r.kind, dist := r.dist, limit := r.limit, ext := r.ext, aligned := false
    chan := { x.chan with
      target := 0, applied := 0, lastCorrected := 0, r := if j = 0 then 0 else x.chan.r
      n := if j = 0 then 0 else x.chan.n }
    eng := { state := if r.present = true then .parked else .absent, cause := none, startSeq := 0, stopSeq := 0,
             window := false }
    miss := 0, last := none } := by
  unfold Screen.rewritten Screen.restructure
  dsimp only
  by_cases hj : j = 0
  · rw [if_pos hj, if_pos hj, if_pos hj]
  · rw [if_neg hj, if_neg hj, if_neg hj]

theorem recordRefusal_recordOf {head pres kind dist lim : Field} {ext : Bool}
    (hsetup : s.web.lineState ≠ .setup → j ≠ 0)
    (hkey : j = 0 → pres.value = 1 → kind.value = 0 ∧ dist.value = 0)
    (hremoved : j = 0 → pres.value ≠ 1 → ∀ k, k ≠ 0 → (s.screen k).present = false)
    (hmissing : j ≠ 0 → pres.value = 1 → (s.screen 0).present = true)
    (hbusy : ∀ m, s.tests j m (tableAfter s.screens j (recordOf head pres kind dist lim ext)) →
      s.engState m = .absent ∨ s.engState m = .parked ∨ s.engState m = .faulted)
    (hruns : s.web.lineState = .run → ∀ m, inSet s.planned m = true →
      anchorOf (tableAfter s.screens j (recordOf head pres kind dist lim ext)) m = anchorOf s.screens m
      ∧ anchorOf (tableAfter s.screens j (recordOf head pres kind dist lim ext)) m ≠ none) :
    recordRefusal s j (recordOf head pres kind dist lim ext) = none := by
  refine recordRefusal_eq_none (keyScreenRefusal_eq_none (fun hj hp => ?_) (fun hj hp => ?_) fun hj hp => ?_) ?_ ?_
  · obtain ⟨h0, hd⟩ := hkey hj (of_decide_eq_true hp)
    exact ⟨if_neg (by omega), (congrArg Int.ofNat hd : (dist.value : Int) = 0)⟩
  · exact hremoved hj (of_decide_eq_false hp)
  · exact hmissing hj (of_decide_eq_true hp)
  · rw [← Bool.not_eq_true, State.groupBusy_iff]
    rintro ⟨m, hm, h1, h2, h3⟩
    rcases hbusy m hm with h | h | h
    · exact h1 h
    · exact h2 h
    · exact h3 h
  · rw [← Bool.not_eq_true, State.runRefuses_iff]
    rintro (⟨hline, hj⟩ | ⟨hline, m, hm, hgroup⟩)
    · exact hsetup hline hj
    · obtain ⟨hsame, hsome⟩ := hruns hline m hm
      rcases hgroup with h | h
      · exact hsome h
      · exact h hsame

end
end Sys2Proof.Machine

/-! ### The statement -/

open Sys2Proof Sys2Proof.Machine

/-- Settles O31: one whole record that passes is applied, and the first record that fails a check is answered by it. -/
theorem screenPutRewritesItsScreen : Obligations.ScreenPutRewritesItsScreen := by
  unfold Obligations.ScreenPutRewritesItsScreen
  refine ⟨?_, ?_, ?_⟩
  · rintro s n tag payload j f head pres kind dist lim exts ext _ screenKind hears hfields hf hpres hkind hdist hlim hexts
      hanchor hrelative rfl houtside hkey hremoved hmissing hbusy hruns
    obtain rfl : screenKind = (recordOf head pres kind dist lim ext).kind := by
      unfold recordOf
      dsimp only
      split
      · exact hrelative ‹_›
      · exact hanchor (by omega)
    generalize hr : recordOf head pres kind dist lim ext = r at *
    have hafter : s.screens.set j { s.screen j with
        present := decide (pres.value = 1), kind := r.kind, dist := dist.value, limit := lim.value, ext := ext }
        = tableAfter s.screens j r := by
      rw [← hr]
      rfl
    rw [hafter] at hbusy hruns
    rw [hafter]
    have hparse : parseRecord payload s (head :: pres :: kind :: dist :: lim :: exts) = .ok (r, []) :=
      parseRecord_ok.mpr ⟨head, pres, kind, dist, lim, exts, ext, by rw [List.append_nil],
        ⟨hpres, hkind, hdist, hlim, hexts, fun ⟨h1, h2, h3⟩ => absurd ((houtside h1).2 h2) (not_lt.mpr h3)⟩, hr.symm⟩
    have hpass : recordRefusal s j r = none := by
      rw [← hr] at hbusy hruns ⊢
      exact recordRefusal_recordOf (fun h => (houtside h).1) hkey (fun hj hp => hremoved hj (by omega)) hmissing
        hbusy hruns
    obtain ⟨hframe, hphase, hring, hup, hdown, hhold⟩ :=
      s.putOne_spec (n := n) (tag := tag) (payload := payload) (j := j) (r := r)
    refine ⟨_, exec_screenPut_one hears hfields hf (List.cons_ne_nil _ _) hparse hpass, hframe, State.port_putOne_held,
      fun m => ⟨State.port_putOne_ne, State.port_putOne_sets m⟩, ?_, fun k hk => ?_, hphase, hring, hup, hdown, hhold⟩
    · rw [State.screen_putOne, State.screen_putRecord_same, Screen.rewritten_unaligned, ← hr]
      simp only [recordOf, decide_eq_true_eq]
    · rw [State.screen_putOne]
      exact ⟨State.screen_putRecord_ne hk, State.aligned_putRecord_ne hk⟩
  · intro s n tag payload hears
    refine ⟨fun hbad => ⟨_, exec_badStart (k := .screenPut) hears rfl fun u => ?_⟩, ?_⟩
    · change takeScreenPut n payload u = badStart u
      unfold takeScreenPut
      rw [startIndex_none hbad]
    · rintro f j record _ refused hfields hf rfl hrefused
      exact screenPut_refusesFields hears hfields hf hrefused
  · rintro s n tag payload j f head pres kind dist lim exts more _ refused hears hfields hf hpres hkind hdist hlim hexts rfl
      hrefused
    obtain ⟨hbeyond, hinside⟩ := screenPut_refusesRecord hears hfields hf hpres hkind hdist hlim hexts hrefused
    refine ⟨hbeyond, fun hcamera => ?_⟩
    obtain ⟨ext, hrefusal⟩ := hinside hcamera
    have hgroups := s.regrouped_sameGroups j (recordOf head pres kind dist lim ext)
    have hkey := fun {a : Answer} h => hrefusal a (recordRefusal_key h)
    refine ⟨fun hj hp hk => hkey (keyScreenRefusal_relative hj (decide_eq_true hp) (if_pos hk)),
      fun hj hp hk hd => hkey (keyScreenRefusal_dist hj (decide_eq_true hp) (if_neg (by omega)) (Int.natCast_ne_zero.mpr hd)),
      fun hj hp hk => hkey (keyScreenRefusal_removed hj (decide_eq_false (by omega)) hk),
      fun hj hp h0 => hkey (keyScreenRefusal_missing hj (decide_eq_true hp) h0), fun h1 h2 h3 => ?_⟩
    have hnone : keyScreenRefusal s.screens j (recordOf head pres kind dist lim ext) = none := by
      refine keyScreenRefusal_eq_none (fun hj hp => ?_) (fun hj hp => ?_) fun hj hp => h3 hj (of_decide_eq_true hp)
      · obtain ⟨h0, hd⟩ := h1 hj (of_decide_eq_true hp)
        exact ⟨if_neg (by omega), (congrArg Int.ofNat hd : (dist.value : Int) = 0)⟩
      · have hp' := of_decide_eq_false hp
        exact h2 hj (by omega)
    have hstate := fun h => hrefusal _ (recordRefusal_busy hnone h)
    refine ⟨fun ⟨m, hm, hstates⟩ => hstate (.inl (State.groupBusy_iff.mpr ⟨m, (State.tests_congr hgroups).mpr hm, hstates⟩)),
      fun hj hline => hstate (.inr (State.runRefuses_iff.mpr (.inl ⟨hline, hj⟩))), fun hline ⟨m, hm, hgroup⟩ =>
        hstate (.inr (State.runRefuses_iff.mpr (.inr ⟨hline, m, hm, ?_⟩)))⟩
    rw [anchorOf_congr hgroups m]
    exact hgroup
end

section
/-! PROOFS. The records of one SCREEN.PUT one after another: two requests whose fields have the same values do the same on
states that differ in their ports alone, and their answers name the same fields. -/

namespace Sys2Proof.Machine

/-! ### Two payloads with the same field values -/

section
variable {payload payload' : List Word} {fs fs' rest rest' : List Field}

/-- Two lists of fields have the same values, one by one. -/
abbrev SameValues (fs fs' : List Field) : Prop := fs'.map Field.value = fs.map Field.value

/-- Two word indices are the ends of their payloads, or name the same one of their fields. -/
def SamePlace (payload payload' : List Word) (fs fs' : List Field) (i i' : Nat) : Prop :=
  (i = payload.length ∧ i' = payload'.length)
  ∨ ∃ (k : Nat) (x y : Field), fs[k]? = some x ∧ fs'[k]? = some y ∧ i = x.index ∧ i' = y.index

theorem SamePlace.append {pre pre' : List Field} {i i' : Nat} (h : SamePlace payload payload' rest rest' i i')
    (hlen : pre'.length = pre.length) : SamePlace payload payload' (pre ++ rest) (pre' ++ rest') i i' := by
  refine h.imp_right fun ⟨k, x, y, hx, hy, hi, hi'⟩ => ⟨pre.length + k, x, y, ?_, ?_, hi, hi'⟩
  · rwa [List.getElem?_append_right (Nat.le_add_right _ _), Nat.add_sub_cancel_left]
  · rwa [← hlen, List.getElem?_append_right (Nat.le_add_right _ _), Nat.add_sub_cancel_left]

theorem SamePlace.field {k : Nat} {x y : Field} (hx : fs[k]? = some x) (hy : fs'[k]? = some y) :
    SamePlace payload payload' fs fs' x.index y.index := .inr ⟨k, x, y, hx, hy, rfl, rfl⟩

/-- The same fields are taken of two lists, or both are refused at the same place. -/
theorem takeFields_alike (bounds : List (Nat × Nat)) (h : SameValues fs fs') :
    (∃ a a', takeFields payload bounds fs = .error a ∧ takeFields payload' bounds fs' = .error a'
      ∧ a.code = .range ∧ a'.code = .range ∧ SamePlace payload payload' fs fs' a.index a'.index)
    ∨ ∃ ys ys' rest rest', fs = ys ++ rest ∧ fs' = ys' ++ rest' ∧ ys.length = bounds.length ∧ SameValues ys ys'
        ∧ SameValues rest rest' ∧ allWithin bounds ys := by
  induction bounds generalizing fs fs' with
  | nil => exact .inr ⟨[], [], fs, fs', rfl, rfl, rfl, rfl, h, nofun⟩
  | cons b bounds ih =>
    cases fs with
    | nil =>
      obtain rfl := List.map_eq_nil_iff.mp h
      exact .inl ⟨_, _, takeFields_error takeField_nil, takeFields_error takeField_nil, rfl, rfl, .inl ⟨rfl, rfl⟩⟩
    | cons f fs =>
      obtain ⟨f', fs', rfl, hf, hfs⟩ := List.map_eq_cons_iff.mp h
      by_cases hwithin : b.1 ≤ f.value ∧ f.value ≤ b.2
      · have hwithin' : b.1 ≤ f'.value ∧ f'.value ≤ b.2 := by rwa [hf]
        rcases ih hfs with ⟨a, a', ha, ha', hcode, hcode', hplace⟩ | ⟨ys, ys', rest, rest', rfl, rfl, hlen, hys, hrest, hall⟩
        · refine .inl ⟨a, a', ?_, ?_, hcode, hcode', hplace.append (pre := [f]) (pre' := [f']) rfl⟩
          · rw [takeFields_cons hwithin, ha]
            rfl
          · rw [takeFields_cons hwithin', ha']
            rfl
        · refine .inr ⟨f :: ys, f' :: ys', rest, rest', rfl, rfl, congrArg _ hlen, ?_, hrest, ?_⟩
          · rw [SameValues, List.map_cons, List.map_cons, hf, hys]
          · intro i g c hg hc
            cases i with
            | zero =>
              obtain rfl := Option.some.inj hg
              obtain rfl := Option.some.inj hc
              exact hwithin
            | succ i => exact hall i g c hg hc
      · have hout : f.value < b.1 ∨ b.2 < f.value := by omega
        have hout' : f'.value < b.1 ∨ b.2 < f'.value := by rwa [hf]
        exact .inl ⟨_, _, takeFields_error (takeField_outside hout), takeFields_error (takeField_outside hout'), rfl, rfl,
          .field (k := 0) rfl rfl⟩

/-! ### One record of each (R22 to R25) -/

/-- The fields of a structural record, in their ranges, with the extension it gives. -/
structure WholeRecord (head pres kind dist lim : Field) (exts : List Field) (ext : Bool) : Prop where
  presRange : pres.value ≤ 1
  kindRange : kind.value ≤ 1
  distRange : dist.value ≤ 2000000
  limRange : lim.value ≤ 3000
  extension : (head.value = 0 ∧ exts = [] ∧ ext = false)
    ∨ (head.value = 1 ∧ ∃ e : Field, exts = [e] ∧ e.value ≤ 1 ∧ ext = decide (e.value = 1))

section
variable {head pres kind dist lim head' pres' kind' dist' lim' : Field} {exts exts' : List Field} {ext : Bool} {s : State}

theorem recordRanges_cons : recordRanges (head :: fs) =
    (0, 1) :: (0, 1) :: (0, 1) :: (0, 2000000) :: (0, 3000) :: if head.value = 1 then [(0, 1)] else [] := by
  unfold recordRanges
  by_cases h : head.value = 1 <;> simp [h]

/-- A run of fields in the ranges of a record is one. -/
theorem wholeRecord_of_within (hlen : fs.length = (recordRanges (fs ++ rest)).length)
    (hall : allWithin (recordRanges (fs ++ rest)) fs) : ∃ (head pres kind dist lim : Field) (exts : List Field) (ext : Bool),
      fs = head :: pres :: kind :: dist :: lim :: exts ∧ WholeRecord head pres kind dist lim exts ext := by
  obtain ⟨head, fs, rfl⟩ :=
    List.exists_cons_of_length_eq_add_one (hlen.trans (List.length_append.trans (Nat.add_comm 5 _)))
  rw [List.cons_append, recordRanges_cons] at hlen hall
  replace hlen := Nat.succ.inj hlen
  obtain ⟨hhead, hall⟩ := allWithin_cons hall
  obtain ⟨pres, fs, rfl⟩ := List.exists_cons_of_length_eq_add_one hlen
  obtain ⟨hpres, hall⟩ := allWithin_cons hall
  replace hlen := Nat.succ.inj hlen
  obtain ⟨kind, fs, rfl⟩ := List.exists_cons_of_length_eq_add_one hlen
  obtain ⟨hkind, hall⟩ := allWithin_cons hall
  replace hlen := Nat.succ.inj hlen
  obtain ⟨dist, fs, rfl⟩ := List.exists_cons_of_length_eq_add_one hlen
  obtain ⟨hdist, hall⟩ := allWithin_cons hall
  replace hlen := Nat.succ.inj hlen
  obtain ⟨lim, exts, rfl⟩ := List.exists_cons_of_length_eq_add_one hlen
  obtain ⟨hlim, hall⟩ := allWithin_cons hall
  replace hlen := Nat.succ.inj hlen
  by_cases h1 : head.value = 1
  · rw [if_pos h1] at hlen hall
    obtain ⟨e, rfl⟩ := List.length_eq_one_iff.mp hlen
    obtain ⟨he, -⟩ := allWithin_cons hall
    exact ⟨head, pres, kind, dist, lim, [e], _, rfl, hpres.2, hkind.2, hdist.2, hlim.2, .inr ⟨h1, e, rfl, he.2, rfl⟩⟩
  · rw [if_neg h1] at hlen
    obtain rfl := List.eq_nil_of_length_eq_zero hlen
    have h0 : head.value = 0 := by
      have := hhead.2
      dsimp only at this
      omega
    exact ⟨head, pres, kind, dist, lim, [], false, rfl, hpres.2, hkind.2, hdist.2, hlim.2, .inl ⟨h0, rfl, rfl⟩⟩

/-- The extension given by the values of a record is that of another with the same values. -/
theorem WholeRecord.congr (h : WholeRecord head pres kind dist lim exts ext)
    (hvalues : SameValues (head :: pres :: kind :: dist :: lim :: exts) (head' :: pres' :: kind' :: dist' :: lim' :: exts')) :
    WholeRecord head' pres' kind' dist' lim' exts' ext
    ∧ pres'.value = pres.value ∧ kind'.value = kind.value ∧ dist'.value = dist.value ∧ lim'.value = lim.value := by
  obtain ⟨h1, h2, h3, h4, h5⟩ := h
  simp only [SameValues, List.map_cons, List.cons.injEq] at hvalues
  obtain ⟨hhead, hpres, hkind, hdist, hlim, hexts⟩ := hvalues
  refine ⟨⟨hpres ▸ h1, hkind ▸ h2, hdist ▸ h3, hlim ▸ h4, ?_⟩, hpres, hkind, hdist, hlim⟩
  rw [hhead]
  rcases h5 with ⟨h0, rfl, hext⟩ | ⟨h1, e, rfl, he, hext⟩
  · exact .inl ⟨h0, List.map_eq_nil_iff.mp hexts, hext⟩
  · obtain ⟨e', rest', rfl, he', hrest⟩ := List.map_eq_cons_iff.mp hexts
    obtain rfl := List.map_eq_nil_iff.mp hrest
    exact .inr ⟨h1, e', rfl, he' ▸ he, he' ▸ hext⟩

/-- A whole record is refused by check 6 of R22 alone. -/
theorem WholeRecord.parse (h : WholeRecord head pres kind dist lim exts ext) :
    parseRecord payload s (head :: pres :: kind :: dist :: lim :: (exts ++ rest)) =
      if s.web.lineState ≠ .setup ∧ pres.value = 1 ∧ s.line.xInsp ≤ dist.value then .error (naming dist)
      else .ok (recordOf head pres kind dist lim ext, rest) := by
  obtain ⟨hpres, hkind, hdist, hlim, hexts⟩ := h
  split
  · rename_i hbeyond
    obtain ⟨h1, h2, h3⟩ := hbeyond
    refine parseRecord_beyond h2 hkind hdist hlim (hexts.imp (fun h => ⟨h.1, h.2.1⟩) ?_) h1 h3
    rintro ⟨h1, e, he, hle, -⟩
    exact ⟨h1, e, he, hle⟩
  · rename_i hinside
    exact parseRecord_ok.mpr ⟨head, pres, kind, dist, lim, exts, ext, rfl, ⟨hpres, hkind, hdist, hlim, hexts, hinside⟩, rfl⟩

end

/-- Two records are equal but for their word indices, which name the same fields. -/
structure RecordsAlike (payload payload' : List Word) (fs fs' : List Field) (r r' : StructRecord) : Prop where
  eq : r' = { r with headIndex := r'.headIndex, kindIndex := r'.kindIndex, distIndex := r'.distIndex }
  head : SamePlace payload payload' fs fs' r.headIndex r'.headIndex
  kind : SamePlace payload payload' fs fs' r.kindIndex r'.kindIndex
  dist : SamePlace payload payload' fs fs' r.distIndex r'.distIndex

/-- Two states agree in all but their ports. -/
def ApartPorts (s s' : State) : Prop := s' = s.withPorts s'.ports

variable {s s' : State} {j : ScreenId} {r r' : StructRecord}

/-- The same record is parsed of two lists, or both are refused at the same place. -/
theorem parseRecord_alike (hs : ApartPorts s s') (h : SameValues fs fs') :
    (∃ a a', parseRecord payload s fs = .error a ∧ parseRecord payload' s' fs' = .error a'
      ∧ a.code = .range ∧ a'.code = .range ∧ SamePlace payload payload' fs fs' a.index a'.index)
    ∨ ∃ r r' ys ys' rest rest', parseRecord payload s fs = .ok (r, rest) ∧ parseRecord payload' s' fs' = .ok (r', rest')
        ∧ fs = ys ++ rest ∧ fs' = ys' ++ rest' ∧ SameValues ys ys' ∧ ys ≠ [] ∧ SameValues rest rest'
        ∧ RecordsAlike payload payload' fs fs' r r' := by
  have hline : s'.line = s.line := by rw [hs]; rfl
  have hweb : s'.web = s.web := by rw [hs]; rfl
  have hranges : recordRanges fs' = recordRanges fs := by
    unfold recordRanges
    rw [← List.head?_map, ← List.head?_map, h]
  rcases takeFields_alike (payload := payload) (payload' := payload') (recordRanges fs) h with
    ⟨a, a', ha, ha', hcode, hcode', hplace⟩ | ⟨ys, ys', rest, rest', hfs, hfs', hlen, hys, hrest, hall⟩
  · exact .inl ⟨a, a', parseRecord_error ha, parseRecord_error (hranges ▸ ha'), hcode, hcode', hplace⟩
  · rw [hfs] at hlen hall
    obtain ⟨head, pres, kind, dist, lim, exts, ext, hyseq, hwhole⟩ := wholeRecord_of_within hlen hall
    have hys5 := hys
    rw [SameValues, hyseq] at hys5
    obtain ⟨head', l1, hl1, -, hys1⟩ := List.map_eq_cons_iff.mp hys5
    obtain ⟨pres', l2, rfl, -, hys2⟩ := List.map_eq_cons_iff.mp hys1
    obtain ⟨kind', l3, rfl, -, hys3⟩ := List.map_eq_cons_iff.mp hys2
    obtain ⟨dist', l4, rfl, -, hys4⟩ := List.map_eq_cons_iff.mp hys3
    obtain ⟨lim', exts', rfl, -, -⟩ := List.map_eq_cons_iff.mp hys4
    rw [hl1] at hys5
    obtain ⟨hwhole', hpres, hkind, hdist, hlim⟩ := hwhole.congr hys5
    have hparse := hwhole.parse (payload := payload) (s := s) (rest := rest)
    have hparse' := hwhole'.parse (payload := payload') (s := s') (rest := rest')
    rw [hweb, hline, hpres, hdist] at hparse'
    rw [hfs, hfs', hyseq, hl1]
    split at hparse
    · rename_i hbeyond
      rw [if_pos hbeyond] at hparse'
      exact .inl ⟨_, _, hparse, hparse', rfl, rfl, .field (k := 3) rfl rfl⟩
    · rename_i hinside
      rw [if_neg hinside] at hparse'
      refine .inr ⟨_, _, _, _, rest, rest', hparse, hparse', rfl, rfl, hys5, List.cons_ne_nil _ _, hrest, ?_,
        .field (k := 0) rfl rfl, .field (k := 2) rfl rfl, .field (k := 3) rfl rfl⟩
      unfold recordOf
      rw [hpres, hkind, hdist, hlim]

/-- Records alike are refused alike (R23 to R25). -/
theorem recordRefusal_alike (hs : ApartPorts s s') (hr : RecordsAlike payload payload' fs fs' r r') :
    (recordRefusal s j r = none ∧ recordRefusal s' j r' = none)
    ∨ ∃ a a', recordRefusal s j r = some a ∧ recordRefusal s' j r' = some a' ∧ a.code ≠ .ok ∧ a'.code = a.code
        ∧ SamePlace payload payload' fs fs' a.index a'.index := by
  have hscreens : s'.screens = s.screens := by rw [hs]; rfl
  have hbusy : s'.groupBusy j r' = s.groupBusy j r := by rw [hs, hr.eq]; rfl
  have hruns : s'.runRefuses j r' = s.runRefuses j r := by rw [hs, hr.eq]; rfl
  have hpresent : r'.present = r.present := by rw [hr.eq]
  have hkind : r'.kind = r.kind := by rw [hr.eq]
  have hdist : r'.dist = r.dist := by rw [hr.eq]
  have hkey : (keyScreenRefusal s.screens j r = none ∧ keyScreenRefusal s.screens j r' = none)
      ∨ ∃ a a', keyScreenRefusal s.screens j r = some a ∧ keyScreenRefusal s.screens j r' = some a' ∧ a.code ≠ .ok
        ∧ a'.code = a.code ∧ SamePlace payload payload' fs fs' a.index a'.index := by
    unfold keyScreenRefusal
    rw [hpresent, hkind, hdist]
    split_ifs
    · exact .inr ⟨_, _, rfl, rfl, nofun, rfl, hr.kind⟩
    · exact .inr ⟨_, _, rfl, rfl, nofun, rfl, hr.dist⟩
    · exact .inl ⟨rfl, rfl⟩
    · exact .inr ⟨_, _, rfl, rfl, nofun, rfl, hr.head⟩
    · exact .inl ⟨rfl, rfl⟩
    · exact .inr ⟨_, _, rfl, rfl, nofun, rfl, hr.head⟩
    · exact .inl ⟨rfl, rfl⟩
  unfold recordRefusal
  rw [hscreens, hbusy, hruns]
  rcases hkey with ⟨h, h'⟩ | ⟨a, a', h, h', hplace⟩
  · rw [h, h']
    dsimp only
    split
    · exact .inr ⟨_, _, rfl, rfl, nofun, rfl, hr.head⟩
    · exact .inl ⟨rfl, rfl⟩
  · rw [h, h']
    exact .inr ⟨a, a', rfl, rfl, hplace⟩

theorem ApartPorts.evalLines (h : ApartPorts s s') : ApartPorts s.evalLines s'.evalLines := by
  unfold ApartPorts at h ⊢
  rw [h]
  rfl

/-- The word indices of a record leave no trace in the state. -/
theorem RecordsAlike.putRecord (hr : RecordsAlike payload payload' fs fs' r r') (s : State) :
    s.putRecord j r' = s.putRecord j r := by
  have hpresent : r'.present = r.present := by rw [hr.eq]
  have hrestructure : ∀ x : Screen, x.restructure r' = x.restructure r := fun x => by rw [hr.eq]; rfl
  have hrewritten : ∀ x : Screen, x.rewritten j r' = x.rewritten j r := fun x => by
    unfold Screen.rewritten
    rw [hrestructure, hpresent]
  have htable : tableAfter s.screens j r' = tableAfter s.screens j r := by
    unfold tableAfter
    rw [hrestructure]
  unfold State.putRecord
  simp only [htable, hrewritten]

theorem State.mapScreens_withPorts (f : ScreenId → Screen → Screen) (s : State) (p : Vector Port 4) :
    (s.withPorts p).mapScreens f = (s.mapScreens f).withPorts p := rfl

/-- Records alike, applied to states that differ in their ports alone, leave such states. -/
theorem ApartPorts.putRecord (hs : ApartPorts s s') (hr : RecordsAlike payload payload' fs fs' r r') :
    ApartPorts (s.putRecord j r) (s'.putRecord j r') := by
  rw [hr.putRecord, hs]
  unfold State.putRecord
  dsimp only
  refine ApartPorts.evalLines ?_
  rw [State.mapScreens_withPorts, State.withPorts_screens, State.withPorts_ring]
  generalize s.mapScreens _ = u
  generalize ringAfterWrite _ _ = ring
  split <;> rfl

end

/-! ### The records one after another -/

/-- Two requests answer alike, the first with one record applied more. -/
structure AnswersInTurn (payload payload' : List Word) (fs fs' : List Field) (a a' : Answer) : Prop where
  code : a.code = a'.code
  words : ∃ m w : Int, a'.words = words1 m ++ words1 w ∧ a.words = words1 (m + 1) ++ words1 w
  place : (a.code = .ok ∧ a.index = 0 ∧ a'.index = 0) ∨ SamePlace payload payload' fs fs' a.index a'.index

section
variable {payload payload' : List Word} {fs fs' rest rest' : List Field} {s s' : State} {j : ScreenId}

theorem recordsAnswer_inTurn {code : Status} {i i' : Nat} (m : Nat)
    (h : (code = .ok ∧ i = 0 ∧ i' = 0) ∨ SamePlace payload payload' fs fs' i i') :
    AnswersInTurn payload payload' fs fs' (recordsAnswer code i (m + 1) j) (recordsAnswer code i' m j) :=
  ⟨rfl, ⟨m, j.val, rfl, by unfold recordsAnswer; push_cast; rfl⟩, h⟩

theorem AnswersInTurn.append {pre pre' : List Field} {a a' : Answer} (h : AnswersInTurn payload payload' rest rest' a a')
    (hlen : pre'.length = pre.length) : AnswersInTurn payload payload' (pre ++ rest) (pre' ++ rest') a a' :=
  ⟨h.code, h.words, h.place.imp_right fun hplace => hplace.append hlen⟩

/-- The records of two requests with the same field values, from states that differ in their ports alone, do the same. -/
theorem putRecords_inTurn {fuel fuel' : Nat} (m : Nat) (hs : ApartPorts s s') (h : SameValues fs fs')
    (hfuel : fs.length ≤ fuel) (hfuel' : fs'.length ≤ fuel') :
    ApartPorts (putRecords payload fuel j (m + 1) fs s).1 (putRecords payload' fuel' j m fs' s').1
    ∧ AnswersInTurn payload payload' fs fs' (putRecords payload fuel j (m + 1) fs s).2
        (putRecords payload' fuel' j m fs' s').2 := by
  induction fuel generalizing fuel' j m fs fs' s s' with
  | zero =>
    obtain rfl := List.eq_nil_of_length_eq_zero (Nat.le_zero.mp hfuel)
    obtain rfl := List.map_eq_nil_iff.mp h
    rw [putRecords_end, putRecords_end]
    exact ⟨hs, recordsAnswer_inTurn m (.inl ⟨rfl, rfl, rfl⟩)⟩
  | succ fuel ih =>
    by_cases hne : fs = []
    · subst hne
      obtain rfl := List.map_eq_nil_iff.mp h
      rw [putRecords_end, putRecords_end]
      exact ⟨hs, recordsAnswer_inTurn m (.inl ⟨rfl, rfl, rfl⟩)⟩
    have hlen : fs'.length = fs.length := by rw [← List.length_map (f := Field.value), h, List.length_map]
    have hpos : 0 < fs.length := List.length_pos_iff_ne_nil.mpr hne
    have hne' : fs' ≠ [] := List.length_pos_iff_ne_nil.mp (hlen ▸ hpos)
    obtain ⟨fuel', rfl⟩ : ∃ k, fuel' = k + 1 := Nat.exists_eq_add_one.mpr (by omega)
    rcases parseRecord_alike (payload := payload) (payload' := payload') hs h with
      ⟨a, a', ha, ha', hcode, hcode', hplace⟩
        | ⟨r, r', ys, ys', rest, rest', hr, hr', hfs, hfs', hys, hysne, hrest, halike⟩
    · rw [putRecords_refused hne (.inl ha), putRecords_refused hne' (.inl ha'), hcode, hcode']
      exact ⟨hs, recordsAnswer_inTurn m (.inr hplace)⟩
    · rcases recordRefusal_alike (j := j) hs halike with ⟨hp, hp'⟩ | ⟨a, a', ha, ha', -, hcode, hplace⟩
      · have hyslen : ys'.length = ys.length := by rw [← List.length_map (f := Field.value), hys, List.length_map]
        have hyspos : 0 < ys.length := List.length_pos_iff_ne_nil.mpr hysne
        have hsplit : fs.length = ys.length + rest.length := by rw [hfs, List.length_append]
        have hsplit' : fs'.length = ys'.length + rest'.length := by rw [hfs', List.length_append]
        rw [putRecords_accepted hne hr hp, putRecords_accepted hne' hr' hp']
        obtain ⟨hstates, hanswers⟩ := ih (m + 1) (j := j + 1) (hs.putRecord halike) hrest (by omega)
          (show rest'.length ≤ fuel' by omega)
        refine ⟨hstates, ?_⟩
        rw [hfs, hfs']
        exact hanswers.append hyslen
      · rw [putRecords_refused hne (.inr ⟨r, rest, hr, ha⟩), putRecords_refused hne' (.inr ⟨r', rest', hr', ha'⟩), hcode]
        exact ⟨hs, recordsAnswer_inTurn m (.inr hplace)⟩

/-! ### The first record, and the rest -/

theorem parseRecord_append {r : StructRecord} (h : parseRecord payload s fs = .ok (r, [])) :
    parseRecord payload s (fs ++ rest) = .ok (r, rest) := by
  obtain ⟨head, pres, kind, dist, lim, exts, ext, hfs, hfields, hr⟩ := parseRecord_ok.mp h
  refine parseRecord_ok.mpr ⟨head, pres, kind, dist, lim, exts, ext, ?_, hfields, hr⟩
  rw [hfs, List.append_nil]
  rfl

/-- As many fields as one record has. -/
def OneRecord (fs : List Field) : Prop :=
  (fs.head?.map Field.value = some 0 ∧ fs.length = 5) ∨ (fs.head?.map Field.value = some 1 ∧ fs.length = 6)

theorem OneRecord.ne_nil (h : OneRecord fs) : fs ≠ [] := by
  rintro rfl
  rcases h with ⟨-, h⟩ | ⟨-, h⟩ <;> cases h

theorem OneRecord.rest_eq_nil {r : StructRecord} (h : OneRecord fs) (hparse : parseRecord payload s fs = .ok (r, rest)) :
    rest = [] := by
  obtain ⟨head, pres, kind, dist, lim, exts, ext, rfl, hfields, -⟩ := parseRecord_ok.mp hparse
  simp only [OneRecord, List.head?_cons, Option.map_some, Option.some.injEq, List.length_cons, List.length_append] at h
  refine List.eq_nil_of_length_eq_zero ?_
  rcases hfields.extension with ⟨h0, rfl, -⟩ | ⟨h1, e, rfl, -⟩
  · rw [List.length_nil] at h
    omega
  · rw [List.length_singleton] at h
    omega

/-- A request of one record that is answered OK has had it applied, and the same fields pass in a longer request. -/
theorem oneRecord_accepted (hs : ApartPorts s s') (h : SameValues fs fs') (hone : OneRecord fs) {fuel : Nat}
    (hok : (putRecords payload' (fuel + 1) j 0 fs' s').2.code = .ok) : ∃ r r',
      parseRecord payload s fs = .ok (r, []) ∧ parseRecord payload' s' fs' = .ok (r', []) ∧ recordRefusal s j r = none
      ∧ recordRefusal s' j r' = none ∧ RecordsAlike payload payload' fs fs' r r' := by
  have hne' : fs' ≠ [] := by
    rintro rfl
    exact hone.ne_nil (List.map_eq_nil_iff.mp h.symm)
  rcases parseRecord_alike (payload := payload) (payload' := payload') hs h with
    ⟨a, a', -, ha', -, hcode, -⟩ | ⟨r, r', ys, ys', rest, rest', hr, hr', -, -, -, -, hrest, halike⟩
  · rw [putRecords_refused hne' (.inl ha')] at hok
    exact absurd (hcode.symm.trans hok) nofun
  · obtain rfl := hone.rest_eq_nil hr
    obtain rfl := List.map_eq_nil_iff.mp hrest
    rcases recordRefusal_alike (j := j) hs halike with ⟨hp, hp'⟩ | ⟨a, a', -, ha', hne, hcode, -⟩
    · exact ⟨r, r', hr, hr', hp, hp', halike⟩
    · rw [putRecords_refused hne' (.inr ⟨r', [], hr', ha'⟩)] at hok
      exact absurd (hcode.symm.trans hok) hne

theorem ApartPorts.modPort {n : PortId} {f : Port → Port} (h : ApartPorts s s') : ApartPorts s (s'.modPort n f) := by
  rw [ApartPorts, h]
  rfl

theorem ApartPorts.receiveFrame {n : PortId} {kind tag : Byte} {p : List Word} (h : ApartPorts s s') :
    ApartPorts s (s'.receiveFrame n kind tag p) := h.modPort

theorem ApartPorts.holdReply {n : PortId} {kind tag : Byte} {a : Answer} (h : ApartPorts s s') :
    ApartPorts s (s'.holdReply n kind tag a) := h.modPort

theorem ApartPorts.replies {n : PortId} {kind tag : Byte} {a a' : Answer} (h : ApartPorts s s') :
    s.holdReply n kind tag a = { s'.holdReply n kind tag a' with ports := (s.holdReply n kind tag a).ports } := by
  rw [h]
  rfl

/-- The port that made an accepted request may make the next. -/
theorem State.putOne_hears {n : PortId} {tag : Byte} {r : StructRecord} (hears : s.hears n .line payload)
    (hlen : payload'.length ≤ 64) : (s.putOne n tag payload j r).hears n .line payload' := by
  refine ⟨?_, ?_, hlen⟩
  · rw [State.putOne_frame]
    exact hears.1
  · obtain ⟨line, hline⟩ := (s.receiveFrame n 0x20 tag payload).port_putRecord (j := j) (r := r) n
    unfold State.putOne
    rw [State.role_holdReply, hline]
    exact (State.role_receiveFrame ..).trans hears.2.1

end
end Sys2Proof.Machine

/-! ### The statement -/

open Sys2Proof Sys2Proof.Machine

/-- Settles O32: the first record leaves the same state but for the ports, and the later ones do the same from there. -/
theorem screenPutTakesRecordsInTurn : Obligations.ScreenPutTakesRecordsInTurn := by
  unfold Obligations.ScreenPutTakesRecordsInTurn
  intro s t u v n tag both first second f f1 g a a1 b b2 j hears hfirst hsecond hboth hfields1 hfields2 hb ha1 hb2 hf hf1 hg
    hone ht hu hok hv
  have hone : OneRecord a := hone
  have hears1 : s.hears n .line first := ⟨hears.1, hears.2.1, hfirst⟩
  have hne1 : a1 ≠ [] := by
    rintro rfl
    exact hone.ne_nil (List.map_eq_nil_iff.mp ha1.symm)
  have hneb2 : b2 ≠ [] := by
    rintro rfl
    exact hb (List.map_eq_nil_iff.mp hb2.symm)
  obtain ⟨k, hk⟩ : ∃ k, a1.length = k + 1 := Nat.exists_eq_add_one.mpr (List.length_pos_iff_ne_nil.mpr hne1)
  have hu' := hu
  rw [exec_screenPut hears1, takeScreenPut_records hfields1 hf1 hne1, hk] at hu'
  have hcode : (putRecords first (k + 1) j 0 a1 (s.receiveFrame n 0x20 tag first)).2.code = .ok := by
    rw [← Host.Outcome.next.inj hu', State.port_holdReply, if_pos rfl] at hok
    exact hok
  have hapart : ApartPorts (s.receiveFrame n 0x20 tag both) (s.receiveFrame n 0x20 tag first) := rfl
  obtain ⟨r, r1, hr, hr1, hp, hp1, halike⟩ := oneRecord_accepted (payload := both) hapart ha1 hone hcode
  have hupdate : u = s.putOne n tag first j r1 :=
    Host.Outcome.next.inj (hu.symm.trans (exec_screenPut_one hears1 hfields1 hf1 hne1 hr1 hp1))
  have hput := hapart.putRecord (j := j) halike
  have hbefore : ApartPorts ((s.receiveFrame n 0x20 tag both).putRecord j r) (u.receiveFrame n 0x20 tag second) := by
    rw [hupdate]
    exact hput.holdReply.receiveFrame
  have hnab : a ++ b ≠ [] := List.append_ne_nil_of_left_ne_nil hone.ne_nil b
  obtain ⟨l, hl⟩ : ∃ l, (a ++ b).length = l + 1 := Nat.exists_eq_add_one.mpr (List.length_pos_iff_ne_nil.mpr hnab)
  have hapos : 0 < a.length := List.length_pos_iff_ne_nil.mpr hone.ne_nil
  rw [exec_screenPut hears, takeScreenPut_records hboth hf hnab, hl, putRecords_accepted hnab (parseRecord_append hr) hp] at ht
  rw [exec_screenPut (hupdate ▸ State.putOne_hears hears1 hsecond), takeScreenPut_records hfields2 hg hneb2] at hv
  obtain rfl := Host.Outcome.next.inj ht
  obtain rfl := Host.Outcome.next.inj hv
  rw [List.length_append] at hl
  obtain ⟨hstates, hanswers⟩ := putRecords_inTurn (payload := both) (payload' := second) (j := j + 1) (fuel := l) 0 hbefore hb2
    (by omega) (le_refl b2.length)
  refine ⟨hstates.replies, ?_⟩
  rw [State.port_holdReply, if_pos rfl, State.port_holdReply, if_pos rfl]
  refine ⟨hanswers.code, hanswers.words, ?_⟩
  rcases hanswers.place with h | h | ⟨i, x, y, h⟩
  · exact .inl h
  · exact .inr (.inl h)
  · exact .inr (.inr ⟨i, x, y, h⟩)
end
